-- ==== Sys2Proof/Word.lean ====
section
/-! DEFINITION. The word types of the LX24 and their plainest arithmetic (00_scope, 03_control_thread R58 to R60). -/

namespace Sys2Proof

/-- A byte, the smallest addressable unit (R60). -/
abbrev Byte := BitVec 8

/-- A 32-bit instruction word (R28). -/
abbrev Word32 := BitVec 32

/-- A 64-bit register of the control thread (R59). -/
abbrev Word := BitVec 64

end Sys2Proof
end

