-- ==== Sys2Proof/Syntax.lean ====
section
/-! DEFINITION. The instruction set of the LX24: one constructor for each row of the opcode table.
The encoded rows (02_encoding R28 to R39) carry the fields of their word as bit vectors, destination first.
The event rows (95_what_each_step_holds) are steps of the module's other agents and carry the place they act at. -/

namespace Sys2Proof

/-- One row of the opcode table: an encoded instruction with the fields of its word, or an event. -/
inductive Instr where
  /-- LUI (R59). -/
  | lui (rd : BitVec 5) (imm : BitVec 20)
  /-- AUIPC (R59). -/
  | auipc (rd : BitVec 5) (imm : BitVec 20)
  /-- JAL (R60). -/
  | jal (rd : BitVec 5) (off : BitVec 20)
  /-- JALR (R60). -/
  | jalr (rd : BitVec 5) (rs1 : BitVec 5) (imm : BitVec 12)
  /-- BEQ (R59). -/
  | beq (rs1 : BitVec 5) (rs2 : BitVec 5) (off : BitVec 12)
  /-- BNE (R59). -/
  | bne (rs1 : BitVec 5) (rs2 : BitVec 5) (off : BitVec 12)
  /-- BLT (R59). -/
  | blt (rs1 : BitVec 5) (rs2 : BitVec 5) (off : BitVec 12)
  /-- BGE (R59). -/
  | bge (rs1 : BitVec 5) (rs2 : BitVec 5) (off : BitVec 12)
  /-- BLTU (R59). -/
  | bltu (rs1 : BitVec 5) (rs2 : BitVec 5) (off : BitVec 12)
  /-- BGEU (R59). -/
  | bgeu (rs1 : BitVec 5) (rs2 : BitVec 5) (off : BitVec 12)
  /-- LB (R59). -/
  | lb (rd : BitVec 5) (rs1 : BitVec 5) (imm : BitVec 12)
  /-- LH (R60). -/
  | lh (rd : BitVec 5) (rs1 : BitVec 5) (imm : BitVec 12)
  /-- LW (R60). -/
  | lw (rd : BitVec 5) (rs1 : BitVec 5) (imm : BitVec 12)
  /-- LD (R60). -/
  | ld (rd : BitVec 5) (rs1 : BitVec 5) (imm : BitVec 12)
  /-- LBU (R59). -/
  | lbu (rd : BitVec 5) (rs1 : BitVec 5) (imm : BitVec 12)
  /-- LHU (R60). -/
  | lhu (rd : BitVec 5) (rs1 : BitVec 5) (imm : BitVec 12)
  /-- LWU (R60). -/
  | lwu (rd : BitVec 5) (rs1 : BitVec 5) (imm : BitVec 12)
  /-- SB (R59). -/
  | sb (rs1 : BitVec 5) (rs2 : BitVec 5) (imm : BitVec 12)
  /-- SH (R60). -/
  | sh (rs1 : BitVec 5) (rs2 : BitVec 5) (imm : BitVec 12)
  /-- SW (R60). -/
  | sw (rs1 : BitVec 5) (rs2 : BitVec 5) (imm : BitVec 12)
  /-- SD (R60). -/
  | sd (rs1 : BitVec 5) (rs2 : BitVec 5) (imm : BitVec 12)
  /-- ADDI (R59). -/
  | addi (rd : BitVec 5) (rs1 : BitVec 5) (imm : BitVec 12)
  /-- SLTI (R59). -/
  | slti (rd : BitVec 5) (rs1 : BitVec 5) (imm : BitVec 12)
  /-- SLTIU (R59). -/
  | sltiu (rd : BitVec 5) (rs1 : BitVec 5) (imm : BitVec 12)
  /-- XORI (R59). -/
  | xori (rd : BitVec 5) (rs1 : BitVec 5) (imm : BitVec 12)
  /-- ORI (R59). -/
  | ori (rd : BitVec 5) (rs1 : BitVec 5) (imm : BitVec 12)
  /-- ANDI (R59). -/
  | andi (rd : BitVec 5) (rs1 : BitVec 5) (imm : BitVec 12)
  /-- SLLI (R59). -/
  | slli (rd : BitVec 5) (rs1 : BitVec 5) (shamt : BitVec 6)
  /-- SRLI (R59). -/
  | srli (rd : BitVec 5) (rs1 : BitVec 5) (shamt : BitVec 6)
  /-- SRAI (R59). -/
  | srai (rd : BitVec 5) (rs1 : BitVec 5) (shamt : BitVec 6)
  /-- ADDIW (R59). -/
  | addiw (rd : BitVec 5) (rs1 : BitVec 5) (imm : BitVec 12)
  /-- SLLIW (R59). -/
  | slliw (rd : BitVec 5) (rs1 : BitVec 5) (shamt : BitVec 5)
  /-- SRLIW (R59). -/
  | srliw (rd : BitVec 5) (rs1 : BitVec 5) (shamt : BitVec 5)
  /-- SRAIW (R59). -/
  | sraiw (rd : BitVec 5) (rs1 : BitVec 5) (shamt : BitVec 5)
  /-- ADD (R59). -/
  | add (rd : BitVec 5) (rs1 : BitVec 5) (rs2 : BitVec 5)
  /-- SLL (R59). -/
  | sll (rd : BitVec 5) (rs1 : BitVec 5) (rs2 : BitVec 5)
  /-- SLT (R59). -/
  | slt (rd : BitVec 5) (rs1 : BitVec 5) (rs2 : BitVec 5)
  /-- SLTU (R59). -/
  | sltu (rd : BitVec 5) (rs1 : BitVec 5) (rs2 : BitVec 5)
  /-- XOR (R59). -/
  | xor (rd : BitVec 5) (rs1 : BitVec 5) (rs2 : BitVec 5)
  /-- SRL (R59). -/
  | srl (rd : BitVec 5) (rs1 : BitVec 5) (rs2 : BitVec 5)
  /-- OR (R59). -/
  | or (rd : BitVec 5) (rs1 : BitVec 5) (rs2 : BitVec 5)
  /-- AND (R59). -/
  | and (rd : BitVec 5) (rs1 : BitVec 5) (rs2 : BitVec 5)
  /-- SUB (R59). -/
  | sub (rd : BitVec 5) (rs1 : BitVec 5) (rs2 : BitVec 5)
  /-- SRA (R59). -/
  | sra (rd : BitVec 5) (rs1 : BitVec 5) (rs2 : BitVec 5)
  /-- MUL (R59). -/
  | mul (rd : BitVec 5) (rs1 : BitVec 5) (rs2 : BitVec 5)
  /-- MULH (R59). -/
  | mulh (rd : BitVec 5) (rs1 : BitVec 5) (rs2 : BitVec 5)
  /-- MULHSU (R59). -/
  | mulhsu (rd : BitVec 5) (rs1 : BitVec 5) (rs2 : BitVec 5)
  /-- MULHU (R59). -/
  | mulhu (rd : BitVec 5) (rs1 : BitVec 5) (rs2 : BitVec 5)
  /-- DIV (R59). -/
  | div (rd : BitVec 5) (rs1 : BitVec 5) (rs2 : BitVec 5)
  /-- DIVU (R59). -/
  | divu (rd : BitVec 5) (rs1 : BitVec 5) (rs2 : BitVec 5)
  /-- REM (R59). -/
  | rem (rd : BitVec 5) (rs1 : BitVec 5) (rs2 : BitVec 5)
  /-- REMU (R59). -/
  | remu (rd : BitVec 5) (rs1 : BitVec 5) (rs2 : BitVec 5)
  /-- ADDW (R59). -/
  | addw (rd : BitVec 5) (rs1 : BitVec 5) (rs2 : BitVec 5)
  /-- SLLW (R59). -/
  | sllw (rd : BitVec 5) (rs1 : BitVec 5) (rs2 : BitVec 5)
  /-- SRLW (R59). -/
  | srlw (rd : BitVec 5) (rs1 : BitVec 5) (rs2 : BitVec 5)
  /-- SUBW (R59). -/
  | subw (rd : BitVec 5) (rs1 : BitVec 5) (rs2 : BitVec 5)
  /-- SRAW (R59). -/
  | sraw (rd : BitVec 5) (rs1 : BitVec 5) (rs2 : BitVec 5)
  /-- MULW (R59). -/
  | mulw (rd : BitVec 5) (rs1 : BitVec 5) (rs2 : BitVec 5)
  /-- DIVW (R59). -/
  | divw (rd : BitVec 5) (rs1 : BitVec 5) (rs2 : BitVec 5)
  /-- DIVUW (R59). -/
  | divuw (rd : BitVec 5) (rs1 : BitVec 5) (rs2 : BitVec 5)
  /-- REMW (R59). -/
  | remw (rd : BitVec 5) (rs1 : BitVec 5) (rs2 : BitVec 5)
  /-- REMUW (R59). -/
  | remuw (rd : BitVec 5) (rs1 : BitVec 5) (rs2 : BitVec 5)
  /-- FENCE (R61). -/
  | fence (fm : BitVec 4) (pred : BitVec 4) (succ : BitVec 4) (rs1 : BitVec 5) (rd : BitVec 5)
  /-- FENCE_I (R60). -/
  | fenceI (rd : BitVec 5) (rs1 : BitVec 5) (imm : BitVec 12)
  /-- AMOADD_W (R62). -/
  | amoaddW (rd : BitVec 5) (rs1 : BitVec 5) (rs2 : BitVec 5) (aq : BitVec 1) (rl : BitVec 1)
  /-- AMOADD_D (R62). -/
  | amoaddD (rd : BitVec 5) (rs1 : BitVec 5) (rs2 : BitVec 5) (aq : BitVec 1) (rl : BitVec 1)
  /-- AMOSWAP_W (R62). -/
  | amoswapW (rd : BitVec 5) (rs1 : BitVec 5) (rs2 : BitVec 5) (aq : BitVec 1) (rl : BitVec 1)
  /-- AMOSWAP_D (R62). -/
  | amoswapD (rd : BitVec 5) (rs1 : BitVec 5) (rs2 : BitVec 5) (aq : BitVec 1) (rl : BitVec 1)
  /-- LR_W (R62). -/
  | lrW (rd : BitVec 5) (rs1 : BitVec 5) (aq : BitVec 1) (rl : BitVec 1)
  /-- LR_D (R62). -/
  | lrD (rd : BitVec 5) (rs1 : BitVec 5) (aq : BitVec 1) (rl : BitVec 1)
  /-- SC_W (R62). -/
  | scW (rd : BitVec 5) (rs1 : BitVec 5) (rs2 : BitVec 5) (aq : BitVec 1) (rl : BitVec 1)
  /-- SC_D (R62). -/
  | scD (rd : BitVec 5) (rs1 : BitVec 5) (rs2 : BitVec 5) (aq : BitVec 1) (rl : BitVec 1)
  /-- AMOXOR_W (R62). -/
  | amoxorW (rd : BitVec 5) (rs1 : BitVec 5) (rs2 : BitVec 5) (aq : BitVec 1) (rl : BitVec 1)
  /-- AMOXOR_D (R62). -/
  | amoxorD (rd : BitVec 5) (rs1 : BitVec 5) (rs2 : BitVec 5) (aq : BitVec 1) (rl : BitVec 1)
  /-- AMOOR_W (R62). -/
  | amoorW (rd : BitVec 5) (rs1 : BitVec 5) (rs2 : BitVec 5) (aq : BitVec 1) (rl : BitVec 1)
  /-- AMOOR_D (R62). -/
  | amoorD (rd : BitVec 5) (rs1 : BitVec 5) (rs2 : BitVec 5) (aq : BitVec 1) (rl : BitVec 1)
  /-- AMOAND_W (R62). -/
  | amoandW (rd : BitVec 5) (rs1 : BitVec 5) (rs2 : BitVec 5) (aq : BitVec 1) (rl : BitVec 1)
  /-- AMOAND_D (R62). -/
  | amoandD (rd : BitVec 5) (rs1 : BitVec 5) (rs2 : BitVec 5) (aq : BitVec 1) (rl : BitVec 1)
  /-- AMOMIN_W (R62). -/
  | amominW (rd : BitVec 5) (rs1 : BitVec 5) (rs2 : BitVec 5) (aq : BitVec 1) (rl : BitVec 1)
  /-- AMOMIN_D (R62). -/
  | amominD (rd : BitVec 5) (rs1 : BitVec 5) (rs2 : BitVec 5) (aq : BitVec 1) (rl : BitVec 1)
  /-- AMOMAX_W (R62). -/
  | amomaxW (rd : BitVec 5) (rs1 : BitVec 5) (rs2 : BitVec 5) (aq : BitVec 1) (rl : BitVec 1)
  /-- AMOMAX_D (R62). -/
  | amomaxD (rd : BitVec 5) (rs1 : BitVec 5) (rs2 : BitVec 5) (aq : BitVec 1) (rl : BitVec 1)
  /-- AMOMINU_W (R62). -/
  | amominuW (rd : BitVec 5) (rs1 : BitVec 5) (rs2 : BitVec 5) (aq : BitVec 1) (rl : BitVec 1)
  /-- AMOMINU_D (R62). -/
  | amominuD (rd : BitVec 5) (rs1 : BitVec 5) (rs2 : BitVec 5) (aq : BitVec 1) (rl : BitVec 1)
  /-- AMOMAXU_W (R62). -/
  | amomaxuW (rd : BitVec 5) (rs1 : BitVec 5) (rs2 : BitVec 5) (aq : BitVec 1) (rl : BitVec 1)
  /-- AMOMAXU_D (R62). -/
  | amomaxuD (rd : BitVec 5) (rs1 : BitVec 5) (rs2 : BitVec 5) (aq : BitVec 1) (rl : BitVec 1)
  /-- ECALL (R353). -/
  | ecall
  /-- EBREAK (R353). -/
  | ebreak
  /-- SRET (R334). -/
  | sret
  /-- MRET (R353). -/
  | mret
  /-- WFI (R353). -/
  | wfi
  /-- SFENCE_VMA (R188). -/
  | sfenceVma (rs1 : BitVec 5) (rs2 : BitVec 5)
  /-- CSRRW (R63). -/
  | csrrw (rd : BitVec 5) (rs1 : BitVec 5) (csr : BitVec 12)
  /-- CSRRS (R63). -/
  | csrrs (rd : BitVec 5) (rs1 : BitVec 5) (csr : BitVec 12)
  /-- CSRRC (R63). -/
  | csrrc (rd : BitVec 5) (rs1 : BitVec 5) (csr : BitVec 12)
  /-- CSRRWI (R63). -/
  | csrrwi (rd : BitVec 5) (uimm : BitVec 5) (csr : BitVec 12)
  /-- CSRRSI (R63). -/
  | csrrsi (rd : BitVec 5) (uimm : BitVec 5) (csr : BitVec 12)
  /-- CSRRCI (R63). -/
  | csrrci (rd : BitVec 5) (uimm : BitVec 5) (csr : BitVec 12)
  /-- FLW (R59). -/
  | flw (rd : BitVec 5) (rs1 : BitVec 5) (imm : BitVec 12)
  /-- FSW (R59). -/
  | fsw (rs1 : BitVec 5) (rs2 : BitVec 5) (imm : BitVec 12)
  /-- FMADD_S (R59). -/
  | fmaddS (rd : BitVec 5) (rs1 : BitVec 5) (rs2 : BitVec 5) (rs3 : BitVec 5) (rm : BitVec 3)
  /-- FMSUB_S (R59). -/
  | fmsubS (rd : BitVec 5) (rs1 : BitVec 5) (rs2 : BitVec 5) (rs3 : BitVec 5) (rm : BitVec 3)
  /-- FNMSUB_S (R59). -/
  | fnmsubS (rd : BitVec 5) (rs1 : BitVec 5) (rs2 : BitVec 5) (rs3 : BitVec 5) (rm : BitVec 3)
  /-- FNMADD_S (R59). -/
  | fnmaddS (rd : BitVec 5) (rs1 : BitVec 5) (rs2 : BitVec 5) (rs3 : BitVec 5) (rm : BitVec 3)
  /-- FADD_S (R59). -/
  | faddS (rd : BitVec 5) (rs1 : BitVec 5) (rs2 : BitVec 5) (rm : BitVec 3)
  /-- FSUB_S (R59). -/
  | fsubS (rd : BitVec 5) (rs1 : BitVec 5) (rs2 : BitVec 5) (rm : BitVec 3)
  /-- FMUL_S (R59). -/
  | fmulS (rd : BitVec 5) (rs1 : BitVec 5) (rs2 : BitVec 5) (rm : BitVec 3)
  /-- FDIV_S (R59). -/
  | fdivS (rd : BitVec 5) (rs1 : BitVec 5) (rs2 : BitVec 5) (rm : BitVec 3)
  /-- FSQRT_S (R59). -/
  | fsqrtS (rd : BitVec 5) (rs1 : BitVec 5) (rm : BitVec 3)
  /-- FSGNJ_S (R59). -/
  | fsgnjS (rd : BitVec 5) (rs1 : BitVec 5) (rs2 : BitVec 5)
  /-- FSGNJN_S (R59). -/
  | fsgnjnS (rd : BitVec 5) (rs1 : BitVec 5) (rs2 : BitVec 5)
  /-- FSGNJX_S (R59). -/
  | fsgnjxS (rd : BitVec 5) (rs1 : BitVec 5) (rs2 : BitVec 5)
  /-- FMIN_S (R59). -/
  | fminS (rd : BitVec 5) (rs1 : BitVec 5) (rs2 : BitVec 5)
  /-- FMAX_S (R59). -/
  | fmaxS (rd : BitVec 5) (rs1 : BitVec 5) (rs2 : BitVec 5)
  /-- FLE_S (R59). -/
  | fleS (rd : BitVec 5) (rs1 : BitVec 5) (rs2 : BitVec 5)
  /-- FLT_S (R59). -/
  | fltS (rd : BitVec 5) (rs1 : BitVec 5) (rs2 : BitVec 5)
  /-- FEQ_S (R59). -/
  | feqS (rd : BitVec 5) (rs1 : BitVec 5) (rs2 : BitVec 5)
  /-- FCVT_W_S (R59). -/
  | fcvtWS (rd : BitVec 5) (rs1 : BitVec 5) (rm : BitVec 3)
  /-- FCVT_WU_S (R59). -/
  | fcvtWuS (rd : BitVec 5) (rs1 : BitVec 5) (rm : BitVec 3)
  /-- FCVT_L_S (R59). -/
  | fcvtLS (rd : BitVec 5) (rs1 : BitVec 5) (rm : BitVec 3)
  /-- FCVT_LU_S (R59). -/
  | fcvtLuS (rd : BitVec 5) (rs1 : BitVec 5) (rm : BitVec 3)
  /-- FCVT_S_W (R59). -/
  | fcvtSW (rd : BitVec 5) (rs1 : BitVec 5) (rm : BitVec 3)
  /-- FCVT_S_WU (R59). -/
  | fcvtSWu (rd : BitVec 5) (rs1 : BitVec 5) (rm : BitVec 3)
  /-- FCVT_S_L (R59). -/
  | fcvtSL (rd : BitVec 5) (rs1 : BitVec 5) (rm : BitVec 3)
  /-- FCVT_S_LU (R59). -/
  | fcvtSLu (rd : BitVec 5) (rs1 : BitVec 5) (rm : BitVec 3)
  /-- FMV_X_W (R59). -/
  | fmvXW (rd : BitVec 5) (rs1 : BitVec 5)
  /-- FCLASS_S (R59). -/
  | fclassS (rd : BitVec 5) (rs1 : BitVec 5)
  /-- FMV_W_X (R59). -/
  | fmvWX (rd : BitVec 5) (rs1 : BitVec 5)
  /-- NON_INSTRUCTION_WORD (R40). -/
  | nonInstructionWord (word : BitVec 32)
  /-- KCLOCK (R66). -/
  | kclock (rd : BitVec 5)
  /-- KIDENT (R67). -/
  | kident (rd : BitVec 5) (sel : BitVec 10)
  /-- CSPAWN (R88). -/
  | cspawn (rd : BitVec 5) (rs1 : BitVec 5)
  /-- CJOIN (R89). -/
  | cjoin (rd : BitVec 5) (rs1 : BitVec 5)
  /-- STCLAIM (R90). -/
  | stclaim (rd : BitVec 5)
  /-- CFINISH (R91). -/
  | cfinish
  /-- CYIELD (R92). -/
  | cyield (rd : BitVec 5)
  /-- RGNMAKE (R93). -/
  | rgnmake (rd : BitVec 5) (rs1 : BitVec 5) (rs2 : BitVec 5)
  /-- RGNSYNC (R94). -/
  | rgnsync (rd : BitVec 5) (rs1 : BitVec 5) (rs2 : BitVec 5)
  /-- CINFO (R95). -/
  | cinfo (rd : BitVec 5) (sel : BitVec 10)
  /-- SELECTION (R80). -/
  | selection (core : Nat)
  /-- DISPATCH (R86). -/
  | dispatch (core : Nat)
  /-- PREEMPTION_REQUEST (R83). -/
  | preemptionRequest (record : Nat) (victim : Nat)
  /-- INTERRUPT_TRAP (R333). -/
  | interruptTrap (core : Nat) (groups : Nat)
  /-- QUIESCE_STOP (R345). -/
  | quiesceStop (core : Nat)
  /-- FAULT_REPORT (R346). -/
  | faultReport (domain : Nat)
  /-- VCFG (R113). -/
  | vcfg (rd : BitVec 5) (rs1 : BitVec 5) (rs2 : BitVec 5)
  /-- VREGS (R114). -/
  | vregs (rd : BitVec 5) (code : BitVec 5)
  /-- VCFGI (R113). -/
  | vcfgi (rd : BitVec 5) (rs1 : BitVec 5) (cfg : BitVec 11)
  /-- VADD_VV (R116). -/
  | vaddVv (vd : BitVec 5) (vs2 : BitVec 5) (vs1 : BitVec 5) (vm : BitVec 1)
  /-- VADD_VX (R116). -/
  | vaddVx (vd : BitVec 5) (vs2 : BitVec 5) (rs1 : BitVec 5) (vm : BitVec 1)
  /-- VADD_VI (R116). -/
  | vaddVi (vd : BitVec 5) (vs2 : BitVec 5) (imm : BitVec 5) (vm : BitVec 1)
  /-- VADD_VS (R124). -/
  | vaddVs (vd : BitVec 5) (vs2 : BitVec 5) (vs1 : BitVec 5) (vm : BitVec 1)
  /-- VSUB_VV (R116). -/
  | vsubVv (vd : BitVec 5) (vs2 : BitVec 5) (vs1 : BitVec 5) (vm : BitVec 1)
  /-- VRSUB_VX (R116). -/
  | vrsubVx (vd : BitVec 5) (vs2 : BitVec 5) (rs1 : BitVec 5) (vm : BitVec 1)
  /-- VRSUB_VI (R116). -/
  | vrsubVi (vd : BitVec 5) (vs2 : BitVec 5) (imm : BitVec 5) (vm : BitVec 1)
  /-- VMINU_VV (R116). -/
  | vminuVv (vd : BitVec 5) (vs2 : BitVec 5) (vs1 : BitVec 5) (vm : BitVec 1)
  /-- VMINU_VX (R116). -/
  | vminuVx (vd : BitVec 5) (vs2 : BitVec 5) (rs1 : BitVec 5) (vm : BitVec 1)
  /-- VMINU_VS (R124). -/
  | vminuVs (vd : BitVec 5) (vs2 : BitVec 5) (vs1 : BitVec 5) (vm : BitVec 1)
  /-- VMIN_VV (R116). -/
  | vminVv (vd : BitVec 5) (vs2 : BitVec 5) (vs1 : BitVec 5) (vm : BitVec 1)
  /-- VMIN_VX (R116). -/
  | vminVx (vd : BitVec 5) (vs2 : BitVec 5) (rs1 : BitVec 5) (vm : BitVec 1)
  /-- VMIN_VS (R124). -/
  | vminVs (vd : BitVec 5) (vs2 : BitVec 5) (vs1 : BitVec 5) (vm : BitVec 1)
  /-- VMAXU_VV (R116). -/
  | vmaxuVv (vd : BitVec 5) (vs2 : BitVec 5) (vs1 : BitVec 5) (vm : BitVec 1)
  /-- VMAXU_VX (R116). -/
  | vmaxuVx (vd : BitVec 5) (vs2 : BitVec 5) (rs1 : BitVec 5) (vm : BitVec 1)
  /-- VMAXU_VS (R124). -/
  | vmaxuVs (vd : BitVec 5) (vs2 : BitVec 5) (vs1 : BitVec 5) (vm : BitVec 1)
  /-- VMAX_VV (R116). -/
  | vmaxVv (vd : BitVec 5) (vs2 : BitVec 5) (vs1 : BitVec 5) (vm : BitVec 1)
  /-- VMAX_VX (R116). -/
  | vmaxVx (vd : BitVec 5) (vs2 : BitVec 5) (rs1 : BitVec 5) (vm : BitVec 1)
  /-- VMAX_VS (R124). -/
  | vmaxVs (vd : BitVec 5) (vs2 : BitVec 5) (vs1 : BitVec 5) (vm : BitVec 1)
  /-- VAND_VV (R116). -/
  | vandVv (vd : BitVec 5) (vs2 : BitVec 5) (vs1 : BitVec 5) (vm : BitVec 1)
  /-- VAND_VX (R116). -/
  | vandVx (vd : BitVec 5) (vs2 : BitVec 5) (rs1 : BitVec 5) (vm : BitVec 1)
  /-- VAND_VI (R116). -/
  | vandVi (vd : BitVec 5) (vs2 : BitVec 5) (imm : BitVec 5) (vm : BitVec 1)
  /-- VAND_MM (R125). -/
  | vandMm (vd : BitVec 5) (vs2 : BitVec 5) (vs1 : BitVec 5)
  /-- VAND_VS (R124). -/
  | vandVs (vd : BitVec 5) (vs2 : BitVec 5) (vs1 : BitVec 5) (vm : BitVec 1)
  /-- VOR_VV (R116). -/
  | vorVv (vd : BitVec 5) (vs2 : BitVec 5) (vs1 : BitVec 5) (vm : BitVec 1)
  /-- VOR_VX (R116). -/
  | vorVx (vd : BitVec 5) (vs2 : BitVec 5) (rs1 : BitVec 5) (vm : BitVec 1)
  /-- VOR_VI (R116). -/
  | vorVi (vd : BitVec 5) (vs2 : BitVec 5) (imm : BitVec 5) (vm : BitVec 1)
  /-- VOR_MM (R125). -/
  | vorMm (vd : BitVec 5) (vs2 : BitVec 5) (vs1 : BitVec 5)
  /-- VOR_VS (R124). -/
  | vorVs (vd : BitVec 5) (vs2 : BitVec 5) (vs1 : BitVec 5) (vm : BitVec 1)
  /-- VXOR_VV (R116). -/
  | vxorVv (vd : BitVec 5) (vs2 : BitVec 5) (vs1 : BitVec 5) (vm : BitVec 1)
  /-- VXOR_VX (R116). -/
  | vxorVx (vd : BitVec 5) (vs2 : BitVec 5) (rs1 : BitVec 5) (vm : BitVec 1)
  /-- VXOR_VI (R116). -/
  | vxorVi (vd : BitVec 5) (vs2 : BitVec 5) (imm : BitVec 5) (vm : BitVec 1)
  /-- VXOR_MM (R125). -/
  | vxorMm (vd : BitVec 5) (vs2 : BitVec 5) (vs1 : BitVec 5)
  /-- VXOR_VS (R124). -/
  | vxorVs (vd : BitVec 5) (vs2 : BitVec 5) (vs1 : BitVec 5) (vm : BitVec 1)
  /-- VSLL_VV (R118). -/
  | vsllVv (vd : BitVec 5) (vs2 : BitVec 5) (vs1 : BitVec 5) (vm : BitVec 1)
  /-- VSLL_VX (R118). -/
  | vsllVx (vd : BitVec 5) (vs2 : BitVec 5) (rs1 : BitVec 5) (vm : BitVec 1)
  /-- VSLL_VI (R118). -/
  | vsllVi (vd : BitVec 5) (vs2 : BitVec 5) (imm : BitVec 5) (vm : BitVec 1)
  /-- VSRL_VV (R118). -/
  | vsrlVv (vd : BitVec 5) (vs2 : BitVec 5) (vs1 : BitVec 5) (vm : BitVec 1)
  /-- VSRL_VX (R118). -/
  | vsrlVx (vd : BitVec 5) (vs2 : BitVec 5) (rs1 : BitVec 5) (vm : BitVec 1)
  /-- VSRL_VI (R118). -/
  | vsrlVi (vd : BitVec 5) (vs2 : BitVec 5) (imm : BitVec 5) (vm : BitVec 1)
  /-- VNCLIPU_WV (R118). -/
  | vnclipuWv (vd : BitVec 5) (vs2 : BitVec 5) (vs1 : BitVec 5) (vm : BitVec 1)
  /-- VSRA_VV (R118). -/
  | vsraVv (vd : BitVec 5) (vs2 : BitVec 5) (vs1 : BitVec 5) (vm : BitVec 1)
  /-- VSRA_VX (R118). -/
  | vsraVx (vd : BitVec 5) (vs2 : BitVec 5) (rs1 : BitVec 5) (vm : BitVec 1)
  /-- VSRA_VI (R118). -/
  | vsraVi (vd : BitVec 5) (vs2 : BitVec 5) (imm : BitVec 5) (vm : BitVec 1)
  /-- VNCLIP_WV (R118). -/
  | vnclipWv (vd : BitVec 5) (vs2 : BitVec 5) (vs1 : BitVec 5) (vm : BitVec 1)
  /-- VMUL_VV (R119). -/
  | vmulVv (vd : BitVec 5) (vs2 : BitVec 5) (vs1 : BitVec 5) (vm : BitVec 1)
  /-- VMUL_VX (R119). -/
  | vmulVx (vd : BitVec 5) (vs2 : BitVec 5) (rs1 : BitVec 5) (vm : BitVec 1)
  /-- VMULH_VV (R119). -/
  | vmulhVv (vd : BitVec 5) (vs2 : BitVec 5) (vs1 : BitVec 5) (vm : BitVec 1)
  /-- VMULH_VX (R119). -/
  | vmulhVx (vd : BitVec 5) (vs2 : BitVec 5) (rs1 : BitVec 5) (vm : BitVec 1)
  /-- VMACC_VV (R119). -/
  | vmaccVv (vd : BitVec 5) (vs2 : BitVec 5) (vs1 : BitVec 5) (vm : BitVec 1)
  /-- VMACC_VX (R119). -/
  | vmaccVx (vd : BitVec 5) (vs2 : BitVec 5) (rs1 : BitVec 5) (vm : BitVec 1)
  /-- VDOT4_VV (R122). -/
  | vdot4Vv (vd : BitVec 5) (vs2 : BitVec 5) (vs1 : BitVec 5) (vm : BitVec 1)
  /-- VDOT4_VX (R122). -/
  | vdot4Vx (vd : BitVec 5) (vs2 : BitVec 5) (rs1 : BitVec 5) (vm : BitVec 1)
  /-- VDIVU_VV (R120). -/
  | vdivuVv (vd : BitVec 5) (vs2 : BitVec 5) (vs1 : BitVec 5) (vm : BitVec 1)
  /-- VDIVU_VX (R120). -/
  | vdivuVx (vd : BitVec 5) (vs2 : BitVec 5) (rs1 : BitVec 5) (vm : BitVec 1)
  /-- VDIV_VV (R120). -/
  | vdivVv (vd : BitVec 5) (vs2 : BitVec 5) (vs1 : BitVec 5) (vm : BitVec 1)
  /-- VDIV_VX (R120). -/
  | vdivVx (vd : BitVec 5) (vs2 : BitVec 5) (rs1 : BitVec 5) (vm : BitVec 1)
  /-- VREMU_VV (R120). -/
  | vremuVv (vd : BitVec 5) (vs2 : BitVec 5) (vs1 : BitVec 5) (vm : BitVec 1)
  /-- VREMU_VX (R120). -/
  | vremuVx (vd : BitVec 5) (vs2 : BitVec 5) (rs1 : BitVec 5) (vm : BitVec 1)
  /-- VREM_VV (R120). -/
  | vremVv (vd : BitVec 5) (vs2 : BitVec 5) (vs1 : BitVec 5) (vm : BitVec 1)
  /-- VREM_VX (R120). -/
  | vremVx (vd : BitVec 5) (vs2 : BitVec 5) (rs1 : BitVec 5) (vm : BitVec 1)
  /-- VSADDU_VV (R117). -/
  | vsadduVv (vd : BitVec 5) (vs2 : BitVec 5) (vs1 : BitVec 5) (vm : BitVec 1)
  /-- VSADDU_VX (R117). -/
  | vsadduVx (vd : BitVec 5) (vs2 : BitVec 5) (rs1 : BitVec 5) (vm : BitVec 1)
  /-- VSADDU_VI (R117). -/
  | vsadduVi (vd : BitVec 5) (vs2 : BitVec 5) (imm : BitVec 5) (vm : BitVec 1)
  /-- VSADD_VV (R117). -/
  | vsaddVv (vd : BitVec 5) (vs2 : BitVec 5) (vs1 : BitVec 5) (vm : BitVec 1)
  /-- VSADD_VX (R117). -/
  | vsaddVx (vd : BitVec 5) (vs2 : BitVec 5) (rs1 : BitVec 5) (vm : BitVec 1)
  /-- VSADD_VI (R117). -/
  | vsaddVi (vd : BitVec 5) (vs2 : BitVec 5) (imm : BitVec 5) (vm : BitVec 1)
  /-- VSSUBU_VV (R117). -/
  | vssubuVv (vd : BitVec 5) (vs2 : BitVec 5) (vs1 : BitVec 5) (vm : BitVec 1)
  /-- VSSUBU_VX (R117). -/
  | vssubuVx (vd : BitVec 5) (vs2 : BitVec 5) (rs1 : BitVec 5) (vm : BitVec 1)
  /-- VSSUB_VV (R117). -/
  | vssubVv (vd : BitVec 5) (vs2 : BitVec 5) (vs1 : BitVec 5) (vm : BitVec 1)
  /-- VSSUB_VX (R117). -/
  | vssubVx (vd : BitVec 5) (vs2 : BitVec 5) (rs1 : BitVec 5) (vm : BitVec 1)
  /-- VCMP_VV (R123). -/
  | vcmpVv (cc : BitVec 3) (md : BitVec 2) (vs2 : BitVec 5) (vs1 : BitVec 5) (vm : BitVec 1)
  /-- VCMP_VX (R123). -/
  | vcmpVx (cc : BitVec 3) (md : BitVec 2) (vs2 : BitVec 5) (rs1 : BitVec 5) (vm : BitVec 1)
  /-- VCMP_VI (R123). -/
  | vcmpVi (cc : BitVec 3) (md : BitVec 2) (vs2 : BitVec 5) (imm : BitVec 5) (vm : BitVec 1)
  /-- VWADDU_VV (R121). -/
  | vwadduVv (vd : BitVec 5) (vs2 : BitVec 5) (vs1 : BitVec 5) (vm : BitVec 1)
  /-- VWADDU_VX (R121). -/
  | vwadduVx (vd : BitVec 5) (vs2 : BitVec 5) (rs1 : BitVec 5) (vm : BitVec 1)
  /-- VWADDU_WV (R121). -/
  | vwadduWv (vd : BitVec 5) (vs2 : BitVec 5) (vs1 : BitVec 5) (vm : BitVec 1)
  /-- VWADD_VV (R121). -/
  | vwaddVv (vd : BitVec 5) (vs2 : BitVec 5) (vs1 : BitVec 5) (vm : BitVec 1)
  /-- VWADD_VX (R121). -/
  | vwaddVx (vd : BitVec 5) (vs2 : BitVec 5) (rs1 : BitVec 5) (vm : BitVec 1)
  /-- VWADD_WV (R121). -/
  | vwaddWv (vd : BitVec 5) (vs2 : BitVec 5) (vs1 : BitVec 5) (vm : BitVec 1)
  /-- VWMULU_VV (R121). -/
  | vwmuluVv (vd : BitVec 5) (vs2 : BitVec 5) (vs1 : BitVec 5) (vm : BitVec 1)
  /-- VWMULU_VX (R121). -/
  | vwmuluVx (vd : BitVec 5) (vs2 : BitVec 5) (rs1 : BitVec 5) (vm : BitVec 1)
  /-- VWMUL_VV (R121). -/
  | vwmulVv (vd : BitVec 5) (vs2 : BitVec 5) (vs1 : BitVec 5) (vm : BitVec 1)
  /-- VWMUL_VX (R121). -/
  | vwmulVx (vd : BitVec 5) (vs2 : BitVec 5) (rs1 : BitVec 5) (vm : BitVec 1)
  /-- VPERM_VV (R126). -/
  | vpermVv (vd : BitVec 5) (vs2 : BitVec 5) (vs1 : BitVec 5) (vm : BitVec 1)
  /-- VSLIDE_VX (R128). -/
  | vslideVx (vd : BitVec 5) (vs2 : BitVec 5) (rs1 : BitVec 5) (vm : BitVec 1)
  /-- VSLIDE_VI (R128). -/
  | vslideVi (vd : BitVec 5) (vs2 : BitVec 5) (imm : BitVec 5) (vm : BitVec 1)
  /-- VMPOPC (R125). -/
  | vmpopc (rd : BitVec 5) (vs2 : BitVec 5) (vm : BitVec 1)
  /-- VMFIRST (R125). -/
  | vmfirst (rd : BitVec 5) (vs2 : BitVec 5) (vm : BitVec 1)
  /-- VMPREFIX (R125). -/
  | vmprefix (vd : BitVec 5) (vs2 : BitVec 5) (vm : BitVec 1)
  /-- VIOTA (R125). -/
  | viota (vd : BitVec 5) (vs2 : BitVec 5) (vm : BitVec 1)
  /-- VID (R125). -/
  | vid (vd : BitVec 5) (vm : BitVec 1)
  /-- VMNOT (R125). -/
  | vmnot (vd : BitVec 5) (vs2 : BitVec 5)
  /-- VLUT_VV (R127). -/
  | vlutVv (vd : BitVec 5) (vs2 : BitVec 5) (vs1 : BitVec 5) (vm : BitVec 1)
  /-- VMV_S_X (R133). -/
  | vmvSX (vd : BitVec 5) (rs1 : BitVec 5)
  /-- VUNPK (R130). -/
  | vunpk (vd : BitVec 5) (vs2 : BitVec 5) (imm : BitVec 4) (vm : BitVec 1)
  /-- VCOMPRESS (R129). -/
  | vcompress (vd : BitVec 5) (vs2 : BitVec 5)
  /-- VEXPAND (R129). -/
  | vexpand (vd : BitVec 5) (vs2 : BitVec 5)
  /-- VMV_X_S (R133). -/
  | vmvXS (rd : BitVec 5) (vs2 : BitVec 5)
  /-- VMV_V_V (R132). -/
  | vmvVV (vd : BitVec 5) (vs1 : BitVec 5)
  /-- VMERGE_VVM (R132). -/
  | vmergeVvm (vd : BitVec 5) (vs2 : BitVec 5) (vs1 : BitVec 5)
  /-- VMV_V_X (R132). -/
  | vmvVX (vd : BitVec 5) (rs1 : BitVec 5)
  /-- VMERGE_VXM (R132). -/
  | vmergeVxm (vd : BitVec 5) (vs2 : BitVec 5) (rs1 : BitVec 5)
  /-- VRESHAPE (R131). -/
  | vreshape (vd : BitVec 5) (vs2 : BitVec 5) (imm : BitVec 5) (vm : BitVec 1)
  /-- VFADD_VV (R146). -/
  | vfaddVv (vd : BitVec 5) (vs2 : BitVec 5) (vs1 : BitVec 5) (vm : BitVec 1)
  /-- VFADD_VF (R146). -/
  | vfaddVf (vd : BitVec 5) (vs2 : BitVec 5) (rs1 : BitVec 5) (vm : BitVec 1)
  /-- VFTSUM_VS (R152). -/
  | vftsumVs (vd : BitVec 5) (vs2 : BitVec 5) (vs1 : BitVec 5) (vm : BitVec 1)
  /-- VFSUB_VV (R146). -/
  | vfsubVv (vd : BitVec 5) (vs2 : BitVec 5) (vs1 : BitVec 5) (vm : BitVec 1)
  /-- VFSUB_VF (R146). -/
  | vfsubVf (vd : BitVec 5) (vs2 : BitVec 5) (rs1 : BitVec 5) (vm : BitVec 1)
  /-- VFOSUM_VS (R153). -/
  | vfosumVs (vd : BitVec 5) (vs2 : BitVec 5) (vs1 : BitVec 5) (vm : BitVec 1)
  /-- VFMUL_VV (R146). -/
  | vfmulVv (vd : BitVec 5) (vs2 : BitVec 5) (vs1 : BitVec 5) (vm : BitVec 1)
  /-- VFMUL_VF (R146). -/
  | vfmulVf (vd : BitVec 5) (vs2 : BitVec 5) (rs1 : BitVec 5) (vm : BitVec 1)
  /-- VFDIV_VV (R146). -/
  | vfdivVv (vd : BitVec 5) (vs2 : BitVec 5) (vs1 : BitVec 5) (vm : BitVec 1)
  /-- VFDIV_VF (R146). -/
  | vfdivVf (vd : BitVec 5) (vs2 : BitVec 5) (rs1 : BitVec 5) (vm : BitVec 1)
  /-- VFMIN_VV (R146). -/
  | vfminVv (vd : BitVec 5) (vs2 : BitVec 5) (vs1 : BitVec 5) (vm : BitVec 1)
  /-- VFMIN_VF (R146). -/
  | vfminVf (vd : BitVec 5) (vs2 : BitVec 5) (rs1 : BitVec 5) (vm : BitVec 1)
  /-- VFMIN_VS (R154). -/
  | vfminVs (vd : BitVec 5) (vs2 : BitVec 5) (vs1 : BitVec 5) (vm : BitVec 1)
  /-- VFMAX_VV (R146). -/
  | vfmaxVv (vd : BitVec 5) (vs2 : BitVec 5) (vs1 : BitVec 5) (vm : BitVec 1)
  /-- VFMAX_VF (R146). -/
  | vfmaxVf (vd : BitVec 5) (vs2 : BitVec 5) (rs1 : BitVec 5) (vm : BitVec 1)
  /-- VFMAX_VS (R154). -/
  | vfmaxVs (vd : BitVec 5) (vs2 : BitVec 5) (vs1 : BitVec 5) (vm : BitVec 1)
  /-- VFMACC_VV (R147). -/
  | vfmaccVv (vd : BitVec 5) (vs2 : BitVec 5) (vs1 : BitVec 5) (vm : BitVec 1)
  /-- VFMACC_VF (R147). -/
  | vfmaccVf (vd : BitVec 5) (vs2 : BitVec 5) (rs1 : BitVec 5) (vm : BitVec 1)
  /-- VFMSAC_VV (R147). -/
  | vfmsacVv (vd : BitVec 5) (vs2 : BitVec 5) (vs1 : BitVec 5) (vm : BitVec 1)
  /-- VFMSAC_VF (R147). -/
  | vfmsacVf (vd : BitVec 5) (vs2 : BitVec 5) (rs1 : BitVec 5) (vm : BitVec 1)
  /-- VFNMACC_VV (R147). -/
  | vfnmaccVv (vd : BitVec 5) (vs2 : BitVec 5) (vs1 : BitVec 5) (vm : BitVec 1)
  /-- VFNMACC_VF (R147). -/
  | vfnmaccVf (vd : BitVec 5) (vs2 : BitVec 5) (rs1 : BitVec 5) (vm : BitVec 1)
  /-- VFNMSAC_VV (R147). -/
  | vfnmsacVv (vd : BitVec 5) (vs2 : BitVec 5) (vs1 : BitVec 5) (vm : BitVec 1)
  /-- VFNMSAC_VF (R147). -/
  | vfnmsacVf (vd : BitVec 5) (vs2 : BitVec 5) (rs1 : BitVec 5) (vm : BitVec 1)
  /-- VFSGNJ_VV (R148). -/
  | vfsgnjVv (vd : BitVec 5) (vs2 : BitVec 5) (vs1 : BitVec 5) (vm : BitVec 1)
  /-- VFSGNJ_VF (R148). -/
  | vfsgnjVf (vd : BitVec 5) (vs2 : BitVec 5) (rs1 : BitVec 5) (vm : BitVec 1)
  /-- VFSGNJN_VV (R148). -/
  | vfsgnjnVv (vd : BitVec 5) (vs2 : BitVec 5) (vs1 : BitVec 5) (vm : BitVec 1)
  /-- VFSGNJN_VF (R148). -/
  | vfsgnjnVf (vd : BitVec 5) (vs2 : BitVec 5) (rs1 : BitVec 5) (vm : BitVec 1)
  /-- VFCMP_VV (R149). -/
  | vfcmpVv (cc : BitVec 3) (md : BitVec 2) (vs2 : BitVec 5) (vs1 : BitVec 5) (vm : BitVec 1)
  /-- VFCMP_VF (R149). -/
  | vfcmpVf (cc : BitVec 3) (md : BitVec 2) (vs2 : BitVec 5) (rs1 : BitVec 5) (vm : BitVec 1)
  /-- VFSQRT (R150). -/
  | vfsqrt (vd : BitVec 5) (vs2 : BitVec 5) (vm : BitVec 1)
  /-- VFCLASS (R150). -/
  | vfclass (vd : BitVec 5) (vs2 : BitVec 5) (vm : BitVec 1)
  /-- VFEXP2 (R150). -/
  | vfexp2 (vd : BitVec 5) (vs2 : BitVec 5) (vm : BitVec 1)
  /-- VFRCP (R150). -/
  | vfrcp (vd : BitVec 5) (vs2 : BitVec 5) (vm : BitVec 1)
  /-- VFLOG2 (R150). -/
  | vflog2 (vd : BitVec 5) (vs2 : BitVec 5) (vm : BitVec 1)
  /-- VFWMACC_F16_VV (R151). -/
  | vfwmaccF16Vv (vd : BitVec 5) (vs2 : BitVec 5) (vs1 : BitVec 5) (vm : BitVec 1)
  /-- VFWMACC_F16_VF (R151). -/
  | vfwmaccF16Vf (vd : BitVec 5) (vs2 : BitVec 5) (rs1 : BitVec 5) (vm : BitVec 1)
  /-- VFWMACC_BF16_VV (R151). -/
  | vfwmaccBf16Vv (vd : BitVec 5) (vs2 : BitVec 5) (vs1 : BitVec 5) (vm : BitVec 1)
  /-- VFWMACC_BF16_VF (R151). -/
  | vfwmaccBf16Vf (vd : BitVec 5) (vs2 : BitVec 5) (rs1 : BitVec 5) (vm : BitVec 1)
  /-- VFCVT (R168). -/
  | vfcvt (vd : BitVec 5) (vs2 : BitVec 5) (sel : BitVec 5) (rf : BitVec 2) (vm : BitVec 1)
  /-- VFWDOTBS (R175). -/
  | vfwdotbs (vd : BitVec 5) (vs2 : BitVec 5) (vs1 : BitVec 5) (wf : BitVec 1) (af : BitVec 1) (vm : BitVec 1)
  /-- VSEED (R173). -/
  | vseed (rs1 : BitVec 5)
  /-- VSBASE (R173). -/
  | vsbase (rs1 : BitVec 5)
  /-- VSCL_VX (R172). -/
  | vsclVx (rs1 : BitVec 5)
  /-- VBQ (R170). -/
  | vbq (vd : BitVec 5) (vs2 : BitVec 5) (sr : BitVec 1) (fmt : BitVec 1)
  /-- VBDQ (R171). -/
  | vbdq (vd : BitVec 5) (vs2 : BitVec 5) (fmt : BitVec 1) (vm : BitVec 1)
  /-- VFREDBS (R174). -/
  | vfredbs (vd : BitVec 5) (vs2 : BitVec 5) (fmt : BitVec 1) (vm : BitVec 1)
  /-- VSCL (R172). -/
  | vscl (vs2 : BitVec 5)
  /-- VLE_E (R216). -/
  | vleE (mu : BitVec 1) (hint : BitVec 2) (vd : BitVec 5) (rs1 : BitVec 5) (w : BitVec 2) (vm : BitVec 1)
  /-- VSE_E (R216). -/
  | vseE (mu : BitVec 1) (hint : BitVec 2) (vs3 : BitVec 5) (rs1 : BitVec 5) (w : BitVec 2) (vm : BitVec 1)
  /-- VLSE_E (R217). -/
  | vlseE (mu : BitVec 1) (hint : BitVec 2) (vd : BitVec 5) (rs1 : BitVec 5) (rs2 : BitVec 5) (w : BitVec 2) (vm : BitVec 1)
  /-- VSSE_E (R217). -/
  | vsseE (mu : BitVec 1) (hint : BitVec 2) (vs3 : BitVec 5) (rs1 : BitVec 5) (rs2 : BitVec 5) (w : BitVec 2) (vm : BitVec 1)
  /-- VLXE_E (R218). -/
  | vlxeE (mu : BitVec 1) (hint : BitVec 2) (vd : BitVec 5) (rs1 : BitVec 5) (vs2 : BitVec 5) (w : BitVec 2) (vm : BitVec 1)
  /-- VSXE_E (R218). -/
  | vsxeE (mu : BitVec 1) (hint : BitVec 2) (vs3 : BitVec 5) (rs1 : BitVec 5) (vs2 : BitVec 5) (w : BitVec 2) (vm : BitVec 1)
  /-- VLT2_E (R219). -/
  | vlt2E (mu : BitVec 1) (hint : BitVec 2) (vd : BitVec 5) (rs1 : BitVec 5) (w : BitVec 2) (vm : BitVec 1)
  /-- VST2_E (R219). -/
  | vst2E (mu : BitVec 1) (hint : BitVec 2) (vs3 : BitVec 5) (rs1 : BitVec 5) (w : BitVec 2) (vm : BitVec 1)
  /-- VLR (R220). -/
  | vlr (mu : BitVec 1) (hint : BitVec 2) (vd : BitVec 5) (rs1 : BitVec 5)
  /-- VSR (R220). -/
  | vsr (mu : BitVec 1) (hint : BitVec 2) (vs3 : BitVec 5) (rs1 : BitVec 5)
  /-- LOAD_LANDED (R201). -/
  | loadLanded (core : Nat) (index : Nat)
  /-- VPREFETCH (R194). -/
  | vprefetch (mu : BitVec 1) (hint : BitVec 2) (rs1 : BitVec 5) (rs2 : BitVec 5)
  /-- VRESID (R194). -/
  | vresid (mu : BitVec 1) (hint : BitVec 2) (rs1 : BitVec 5) (rs2 : BitVec 5)
  /-- MDISCARD (R195). -/
  | mdiscard (mu : BitVec 1) (hint : BitVec 2) (rs1 : BitVec 5) (rs2 : BitVec 5)
  /-- CCLEAN (R196). -/
  | cclean (mu : BitVec 1) (hint : BitVec 2) (rs1 : BitVec 5) (rs2 : BitVec 5)
  /-- CINVAL (R196). -/
  | cinval (mu : BitVec 1) (hint : BitVec 2) (rs1 : BitVec 5) (rs2 : BitVec 5)
  /-- TLBINV (R197). -/
  | tlbinv (mu : BitVec 1) (hint : BitVec 2) (rs1 : BitVec 5) (rs2 : BitVec 5)
  /-- L2CONV (R198). -/
  | l2conv (mu : BitVec 1) (hint : BitVec 2) (rd : BitVec 5) (rs1 : BitVec 5)
  /-- L2REST (R199). -/
  | l2rest (mu : BitVec 1) (hint : BitVec 2) (rd : BitVec 5) (rs1 : BitVec 5)
  /-- PAGE_REVIVAL (R189). -/
  | pageRevival (core : Nat) (va : BitVec 64)
  /-- VAMO (R302). -/
  | vamo (op : BitVec 3) (vd : BitVec 5) (rs1 : BitVec 5) (vs2 : BitVec 5) (vm : BitVec 1)
  /-- VREDMEM (R303). -/
  | vredmem (op : BitVec 5) (vs3 : BitVec 5) (rs1 : BitVec 5) (vm : BitVec 1)
  /-- VGLK (R304). -/
  | vglk (vd : BitVec 5) (rs1 : BitVec 5) (vs2 : BitVec 5) (vm : BitVec 1)
  /-- VSCC (R305). -/
  | vscc (md : BitVec 2) (vs3 : BitVec 5) (rs1 : BitVec 5) (vs2 : BitVec 5) (vm : BitVec 1)
  /-- KFENCE (R296). -/
  | kfence (pred : BitVec 4) (succ : BitVec 4) (scope : BitVec 3)
  /-- VFENCEBAR (R299). -/
  | vfencebar (rd : BitVec 5) (rs1 : BitVec 5)
  /-- BARINIT (R298). -/
  | barinit (rd : BitVec 5) (rs1 : BitVec 5) (rs2 : BitVec 5)
  /-- BARWAIT (R300). -/
  | barwait (rd : BitVec 5) (rs1 : BitVec 5) (rs2 : BitVec 5)
  /-- QDRAIN (R301). -/
  | qdrain (mask : BitVec 4)
  /-- RESERVATION_TIMEOUT (R62). -/
  | reservationTimeout (core : Nat)
  /-- VECTOR_RESERVATION_TIMEOUT (R292). -/
  | vectorReservationTimeout (core : Nat) (index : Nat)
  /-- TAG_SCRUB (R283). -/
  | tagScrub (die : Nat) (slice : Nat)
  /-- LMODE (R221). -/
  | lmode (mode : BitVec 5)
  /-- LMODE_DRAINED (R222). -/
  | lmodeDrained (core : Nat)
  /-- LMODE_SWITCH_DONE (R222). -/
  | lmodeSwitchDone (core : Nat)
  /-- MCLAIM (R247). -/
  | mclaim (slot : BitVec 5)
  /-- MCLAIM_RX (R247). -/
  | mclaimRx (slot : BitVec 5)
  /-- MRELEASE (R247). -/
  | mrelease (slot : BitVec 5)
  /-- MTZERO (R242). -/
  | mtzero (tile : BitVec 5)
  /-- MTDRAIN (R242). -/
  | mtdrain (tile : BitVec 5)
  /-- MCHAIN_TACC0 (R248). -/
  | mchainTacc0 (fmt : BitVec 2) (rd : BitVec 5) (rs1 : BitVec 5) (rs2 : BitVec 5)
  /-- MCHAIN_TACC1 (R248). -/
  | mchainTacc1 (fmt : BitVec 2) (rd : BitVec 5) (rs1 : BitVec 5) (rs2 : BitVec 5)
  /-- CHAIN_LANDED (R248). -/
  | chainLanded (core : Nat) (slot : Nat)
  /-- MSLOTLD (R244). -/
  | mslotld (slot : BitVec 5) (rs1 : BitVec 5)
  /-- SLOT_FILLED (R235). -/
  | slotFilled (core : Nat) (slot : Nat)
  /-- MWLOAD_GROUP0 (R245). -/
  | mwloadGroup0 (wf : BitVec 2) (slot : BitVec 5)
  /-- MWLOAD_GROUP1 (R245). -/
  | mwloadGroup1 (wf : BitVec 2) (slot : BitVec 5)
  /-- MTMV (R243). -/
  | mtmv (vd : BitVec 5) (tile : BitVec 5) (rs1 : BitVec 5)
  /-- MTMVC (R243). -/
  | mtmvc (vd : BitVec 5) (tile : BitVec 5) (rs1 : BitVec 5)
  /-- MVTM (R243). -/
  | mvtm (tile : BitVec 5) (vs2 : BitVec 5) (rs1 : BitVec 5)
  /-- MVTMC (R243). -/
  | mvtmc (tile : BitVec 5) (vs2 : BitVec 5) (rs1 : BitVec 5)
  /-- MOPA (R241). -/
  | mopa (g : BitVec 1) (fm : BitVec 2) (tile : BitVec 5) (vs1 : BitVec 5) (vs2 : BitVec 5)
  /-- MOPAK (R240). -/
  | mopak (g : BitVec 1) (fm : BitVec 2) (tile : BitVec 5) (vs1 : BitVec 5) (vs2 : BitVec 5)
  /-- MWS (R246). -/
  | mws (g : BitVec 1) (fm : BitVec 2) (tile : BitVec 5) (vs1 : BitVec 5)
  /-- MTBCAST (R263). -/
  | mtbcast (rd : BitVec 5) (rs1 : BitVec 5) (rs2 : BitVec 5)
  /-- MTWAIT (R264). -/
  | mtwait (rd : BitVec 5) (rs1 : BitVec 5)
  /-- MTQRD (R265). -/
  | mtqrd (rd : BitVec 5) (rs1 : BitVec 5)
  /-- MTQWR (R265). -/
  | mtqwr (rs1 : BitVec 5) (rs2 : BitVec 5)
  /-- MTRESUME (R266). -/
  | mtresume (rd : BitVec 5) (rs1 : BitVec 5)
  /-- MTRESUME_SKIP (R266). -/
  | mtresumeSkip (rd : BitVec 5) (rs1 : BitVec 5)
  /-- MTKILL (R267). -/
  | mtkill (rd : BitVec 5) (rs1 : BitVec 5)
  /-- MTFAULT (R268). -/
  | mtfault (item : BitVec 2) (rd : BitVec 5) (rs1 : BitVec 5)
  /-- MTFETCH (R269). -/
  | mtfetch (ms1 : BitVec 5)
  /-- MTFETCH_NZ (R269). -/
  | mtfetchNz (ms1 : BitVec 5) (ms2 : BitVec 5)
  /-- MTFETCH_Z (R269). -/
  | mtfetchZ (ms1 : BitVec 5) (ms2 : BitVec 5)
  /-- MTSTOP (R270). -/
  | mtstop
  /-- MTSEND (R271). -/
  | mtsend (rel : BitVec 1) (dir : BitVec 1) (ms1 : BitVec 5)
  /-- MTRECV (R271). -/
  | mtrecv (acq : BitVec 1) (dir : BitVec 1) (md : BitVec 5)
  /-- MTID (R272). -/
  | mtid (item : BitVec 2) (md : BitVec 5)
  /-- BLOCK_FETCH (R254). -/
  | blockFetch (core : Nat) (thread : Nat)
  /-- MT_ISSUE (R255). -/
  | mtIssue (core : Nat) (lane : Nat)
  /-- MT_WORD_COMPLETE (R257). -/
  | mtWordComplete (core : Nat) (thread : Nat)
  /-- MT_UNBLOCK (R257). -/
  | mtUnblock (core : Nat) (thread : Nat)
  /-- ESCAPE_MOVE (R256). -/
  | escapeMove (core : Nat)
  /-- CPISSUE (R323). -/
  | cpissue (rd : BitVec 5) (rs1 : BitVec 5) (rs2 : BitVec 5)
  /-- CPISSUE_PUT (R323). -/
  | cpissuePut (rd : BitVec 5) (rs1 : BitVec 5) (rs2 : BitVec 5)
  /-- CPISSUE_GET (R323). -/
  | cpissueGet (rd : BitVec 5) (rs1 : BitVec 5) (rs2 : BitVec 5)
  /-- CPWAIT (R325). -/
  | cpwait (rd : BitVec 5) (rs1 : BitVec 5)
  /-- SLEEPTIL (R326). -/
  | sleeptil (rd : BitVec 5) (rs1 : BitVec 5)
  /-- CPSUSP (R327). -/
  | cpsusp (rd : BitVec 5) (rs1 : BitVec 5)
  /-- CPRESM (R327). -/
  | cpresm (rd : BitVec 5) (rs1 : BitVec 5)
  /-- CPCANCEL (R327). -/
  | cpcancel (rd : BitVec 5) (rs1 : BitVec 5)
  /-- CPSTAT (R324). -/
  | cpstat (rd : BitVec 5) (rs1 : BitVec 5) (item : BitVec 10)
  /-- COPY_ACCEPT (R313). -/
  | copyAccept (core : Nat)
  /-- COPY_BEGIN (R316). -/
  | copyBegin (core : Nat) (entry : Nat)
  /-- COPY_DONE (R316). -/
  | copyDone (core : Nat) (entry : Nat) (chunks : Nat)
  /-- COPY_FAULT (R318). -/
  | copyFault (core : Nat) (entry : Nat)
  /-- COPY_STOP (R316). -/
  | copyStop (core : Nat) (entry : Nat) (chunks : Nat)
  /-- PROMISE_MISS (R314). -/
  | promiseMiss (core : Nat) (entry : Nat)
  /-- CTXSAVE (R349). -/
  | ctxsave (rd : BitVec 5) (flags : BitVec 3)
  /-- CTXLOAD (R350). -/
  | ctxload
  /-- KFAIL (R351). -/
  | kfail (rs1 : BitVec 5) (rs2 : BitVec 5)
  /-- TRAPSET (R352). -/
  | trapset (rd : BitVec 5) (rs1 : BitVec 5) (rs2 : BitVec 5)
  /-- TRAPSET_RET (R352). -/
  | trapsetRet
  /-- STORAGE_ERROR_TRAP (R331). -/
  | storageErrorTrap (core : Nat)
  /-- PWREQ (R371). -/
  | pwreq (rd : BitVec 5) (rs1 : BitVec 5) (rs2 : BitVec 5)
  /-- PWPIN (R373). -/
  | pwpin (rd : BitVec 5) (rs1 : BitVec 5)
  /-- PWGRANT (R374). -/
  | pwgrant (rd : BitVec 5) (rs1 : BitVec 5)
  /-- PWSLOT (R375). -/
  | pwslot (rd : BitVec 5) (rs1 : BitVec 5) (rs2 : BitVec 5)
  /-- PWSTAT (R372). -/
  | pwstat (rd : BitVec 5) (rs1 : BitVec 5) (item : BitVec 10)
  /-- TOKEN_REFILL (R355). -/
  | tokenRefill
  /-- CORE_QUIET (R361). -/
  | coreQuiet (core : Nat)
  /-- HELD_LOAD_RELEASE (R341). -/
  | heldLoadRelease (core : Nat)
  /-- CORE_GATE (R368). -/
  | coreGate (core : Nat)
  /-- CORE_WAKE_READY (R368). -/
  | coreWakeReady (core : Nat)
  /-- RAIL_AT_TARGET (R366). -/
  | railAtTarget (cluster : Nat)
  /-- CLOCK_AT_LEVEL (R366). -/
  | clockAtLevel (cluster : Nat)
  /-- RING_LATCH (R367). -/
  | ringLatch (cluster : Nat)
  /-- LIMIT_RECORD_UPDATE (R359). -/
  | limitRecordUpdate (cluster : Nat) (maxlvl : BitVec 4) (ceil : BitVec 8) (cap : BitVec 20)
  /-- TELEMETRY_SAMPLE (R387). -/
  | telemetrySample
  /-- HBM_LANE_LEND (R181). -/
  | hbmLaneLend (die : Nat) (channel : Nat)
  /-- HBM_LANE_RETURN (R181). -/
  | hbmLaneReturn (die : Nat) (channel : Nat)
  /-- CORRECTED_ERROR (R376). -/
  | correctedError (die : Nat) (source : BitVec 8) (unit : BitVec 16) (addr : BitVec 64) (lane : BitVec 16)
  /-- UNCORRECTABLE_ERROR (R376). -/
  | uncorrectableError (die : Nat) (source : BitVec 8) (unit : BitVec 16) (addr : BitVec 64) (lane : BitVec 16)
  /-- FATAL_ERROR (R380). -/
  | fatalError (die : Nat) (source : BitVec 8) (unit : BitVec 16) (addr : BitVec 64)
  /-- MODULE_RESET (R5). -/
  | moduleReset
  /-- GO (R381). -/
  | go (word : BitVec 32)
  /-- BOOT_VERIFY (R381). -/
  | bootVerify
  /-- MAQUETTE_SERVICE (R383). -/
  | maquetteService (diesok : BitVec 24)
  /-- FULL_SERVICE (R383). -/
  | fullService (diesok : BitVec 24)
  /-- TAIL (R385). -/
  | tail (vf : Nat) (value : BitVec 64)
  /-- LAUNCH_PACKET (R385). -/
  | launchPacket (vf : Nat)
  /-- HOST_WRITE (R289). -/
  | hostWrite (addr : Nat) (bytes : List (BitVec 8))
  /-- HOST_READ (R376). -/
  | hostRead (addr : Nat) (len : Nat)
  /-- HOST_ATOMICOP (R290). -/
  | hostAtomicop (addr : Nat) (op : Nat) (width : Nat) (operand : BitVec 64) (compare : BitVec 64)
  /-- ATS_INVALIDATION (R384). -/
  | atsInvalidation (addr : Nat) (len : Nat)
  /-- JUNCTION_PORT_DOWN (R386). -/
  | junctionPortDown (port : Nat)
  /-- PORT_RETRAIN (R386). -/
  | portRetrain (port : Nat)
  /-- MAROM_FAILOVER (R387). -/
  | maromFailover
  /-- KMCTL_TS_RESET (R234). -/
  | kmctlTsReset (value : BitVec 2)
  /-- KMCTL_TS_SET (R234). -/
  | kmctlTsSet (value : BitVec 2)
  /-- REGISTER_WRITE (R4). -/
  | registerWrite (function : Nat) (offset : Nat) (value : BitVec 64)
  /-- JUNCTION_PORT_REQUEST (R320). -/
  | junctionPortRequest (port : Nat) (put : Bool) (offset : Nat) (bytes : List (BitVec 8))
  /-- WAY_DRAIN_COMPLETE (R198). -/
  | wayDrainComplete (die : Nat) (slice : Nat)
deriving DecidableEq, Repr

/-- The rows that have no encoding: what the engines, the device, the host and the control thread's own fetch do. -/
def Instr.isEvent : Instr → Bool
  | .lui _ _ => false
  | .auipc _ _ => false
  | .jal _ _ => false
  | .jalr _ _ _ => false
  | .beq _ _ _ => false
  | .bne _ _ _ => false
  | .blt _ _ _ => false
  | .bge _ _ _ => false
  | .bltu _ _ _ => false
  | .bgeu _ _ _ => false
  | .lb _ _ _ => false
  | .lh _ _ _ => false
  | .lw _ _ _ => false
  | .ld _ _ _ => false
  | .lbu _ _ _ => false
  | .lhu _ _ _ => false
  | .lwu _ _ _ => false
  | .sb _ _ _ => false
  | .sh _ _ _ => false
  | .sw _ _ _ => false
  | .sd _ _ _ => false
  | .addi _ _ _ => false
  | .slti _ _ _ => false
  | .sltiu _ _ _ => false
  | .xori _ _ _ => false
  | .ori _ _ _ => false
  | .andi _ _ _ => false
  | .slli _ _ _ => false
  | .srli _ _ _ => false
  | .srai _ _ _ => false
  | .addiw _ _ _ => false
  | .slliw _ _ _ => false
  | .srliw _ _ _ => false
  | .sraiw _ _ _ => false
  | .add _ _ _ => false
  | .sll _ _ _ => false
  | .slt _ _ _ => false
  | .sltu _ _ _ => false
  | .xor _ _ _ => false
  | .srl _ _ _ => false
  | .or _ _ _ => false
  | .and _ _ _ => false
  | .sub _ _ _ => false
  | .sra _ _ _ => false
  | .mul _ _ _ => false
  | .mulh _ _ _ => false
  | .mulhsu _ _ _ => false
  | .mulhu _ _ _ => false
  | .div _ _ _ => false
  | .divu _ _ _ => false
  | .rem _ _ _ => false
  | .remu _ _ _ => false
  | .addw _ _ _ => false
  | .sllw _ _ _ => false
  | .srlw _ _ _ => false
  | .subw _ _ _ => false
  | .sraw _ _ _ => false
  | .mulw _ _ _ => false
  | .divw _ _ _ => false
  | .divuw _ _ _ => false
  | .remw _ _ _ => false
  | .remuw _ _ _ => false
  | .fence _ _ _ _ _ => false
  | .fenceI _ _ _ => false
  | .amoaddW _ _ _ _ _ => false
  | .amoaddD _ _ _ _ _ => false
  | .amoswapW _ _ _ _ _ => false
  | .amoswapD _ _ _ _ _ => false
  | .lrW _ _ _ _ => false
  | .lrD _ _ _ _ => false
  | .scW _ _ _ _ _ => false
  | .scD _ _ _ _ _ => false
  | .amoxorW _ _ _ _ _ => false
  | .amoxorD _ _ _ _ _ => false
  | .amoorW _ _ _ _ _ => false
  | .amoorD _ _ _ _ _ => false
  | .amoandW _ _ _ _ _ => false
  | .amoandD _ _ _ _ _ => false
  | .amominW _ _ _ _ _ => false
  | .amominD _ _ _ _ _ => false
  | .amomaxW _ _ _ _ _ => false
  | .amomaxD _ _ _ _ _ => false
  | .amominuW _ _ _ _ _ => false
  | .amominuD _ _ _ _ _ => false
  | .amomaxuW _ _ _ _ _ => false
  | .amomaxuD _ _ _ _ _ => false
  | .ecall => false
  | .ebreak => false
  | .sret => false
  | .mret => false
  | .wfi => false
  | .sfenceVma _ _ => false
  | .csrrw _ _ _ => false
  | .csrrs _ _ _ => false
  | .csrrc _ _ _ => false
  | .csrrwi _ _ _ => false
  | .csrrsi _ _ _ => false
  | .csrrci _ _ _ => false
  | .flw _ _ _ => false
  | .fsw _ _ _ => false
  | .fmaddS _ _ _ _ _ => false
  | .fmsubS _ _ _ _ _ => false
  | .fnmsubS _ _ _ _ _ => false
  | .fnmaddS _ _ _ _ _ => false
  | .faddS _ _ _ _ => false
  | .fsubS _ _ _ _ => false
  | .fmulS _ _ _ _ => false
  | .fdivS _ _ _ _ => false
  | .fsqrtS _ _ _ => false
  | .fsgnjS _ _ _ => false
  | .fsgnjnS _ _ _ => false
  | .fsgnjxS _ _ _ => false
  | .fminS _ _ _ => false
  | .fmaxS _ _ _ => false
  | .fleS _ _ _ => false
  | .fltS _ _ _ => false
  | .feqS _ _ _ => false
  | .fcvtWS _ _ _ => false
  | .fcvtWuS _ _ _ => false
  | .fcvtLS _ _ _ => false
  | .fcvtLuS _ _ _ => false
  | .fcvtSW _ _ _ => false
  | .fcvtSWu _ _ _ => false
  | .fcvtSL _ _ _ => false
  | .fcvtSLu _ _ _ => false
  | .fmvXW _ _ => false
  | .fclassS _ _ => false
  | .fmvWX _ _ => false
  | .nonInstructionWord _ => true
  | .kclock _ => false
  | .kident _ _ => false
  | .cspawn _ _ => false
  | .cjoin _ _ => false
  | .stclaim _ => false
  | .cfinish => false
  | .cyield _ => false
  | .rgnmake _ _ _ => false
  | .rgnsync _ _ _ => false
  | .cinfo _ _ => false
  | .selection _ => true
  | .dispatch _ => true
  | .preemptionRequest _ _ => true
  | .interruptTrap _ _ => true
  | .quiesceStop _ => true
  | .faultReport _ => true
  | .vcfg _ _ _ => false
  | .vregs _ _ => false
  | .vcfgi _ _ _ => false
  | .vaddVv _ _ _ _ => false
  | .vaddVx _ _ _ _ => false
  | .vaddVi _ _ _ _ => false
  | .vaddVs _ _ _ _ => false
  | .vsubVv _ _ _ _ => false
  | .vrsubVx _ _ _ _ => false
  | .vrsubVi _ _ _ _ => false
  | .vminuVv _ _ _ _ => false
  | .vminuVx _ _ _ _ => false
  | .vminuVs _ _ _ _ => false
  | .vminVv _ _ _ _ => false
  | .vminVx _ _ _ _ => false
  | .vminVs _ _ _ _ => false
  | .vmaxuVv _ _ _ _ => false
  | .vmaxuVx _ _ _ _ => false
  | .vmaxuVs _ _ _ _ => false
  | .vmaxVv _ _ _ _ => false
  | .vmaxVx _ _ _ _ => false
  | .vmaxVs _ _ _ _ => false
  | .vandVv _ _ _ _ => false
  | .vandVx _ _ _ _ => false
  | .vandVi _ _ _ _ => false
  | .vandMm _ _ _ => false
  | .vandVs _ _ _ _ => false
  | .vorVv _ _ _ _ => false
  | .vorVx _ _ _ _ => false
  | .vorVi _ _ _ _ => false
  | .vorMm _ _ _ => false
  | .vorVs _ _ _ _ => false
  | .vxorVv _ _ _ _ => false
  | .vxorVx _ _ _ _ => false
  | .vxorVi _ _ _ _ => false
  | .vxorMm _ _ _ => false
  | .vxorVs _ _ _ _ => false
  | .vsllVv _ _ _ _ => false
  | .vsllVx _ _ _ _ => false
  | .vsllVi _ _ _ _ => false
  | .vsrlVv _ _ _ _ => false
  | .vsrlVx _ _ _ _ => false
  | .vsrlVi _ _ _ _ => false
  | .vnclipuWv _ _ _ _ => false
  | .vsraVv _ _ _ _ => false
  | .vsraVx _ _ _ _ => false
  | .vsraVi _ _ _ _ => false
  | .vnclipWv _ _ _ _ => false
  | .vmulVv _ _ _ _ => false
  | .vmulVx _ _ _ _ => false
  | .vmulhVv _ _ _ _ => false
  | .vmulhVx _ _ _ _ => false
  | .vmaccVv _ _ _ _ => false
  | .vmaccVx _ _ _ _ => false
  | .vdot4Vv _ _ _ _ => false
  | .vdot4Vx _ _ _ _ => false
  | .vdivuVv _ _ _ _ => false
  | .vdivuVx _ _ _ _ => false
  | .vdivVv _ _ _ _ => false
  | .vdivVx _ _ _ _ => false
  | .vremuVv _ _ _ _ => false
  | .vremuVx _ _ _ _ => false
  | .vremVv _ _ _ _ => false
  | .vremVx _ _ _ _ => false
  | .vsadduVv _ _ _ _ => false
  | .vsadduVx _ _ _ _ => false
  | .vsadduVi _ _ _ _ => false
  | .vsaddVv _ _ _ _ => false
  | .vsaddVx _ _ _ _ => false
  | .vsaddVi _ _ _ _ => false
  | .vssubuVv _ _ _ _ => false
  | .vssubuVx _ _ _ _ => false
  | .vssubVv _ _ _ _ => false
  | .vssubVx _ _ _ _ => false
  | .vcmpVv _ _ _ _ _ => false
  | .vcmpVx _ _ _ _ _ => false
  | .vcmpVi _ _ _ _ _ => false
  | .vwadduVv _ _ _ _ => false
  | .vwadduVx _ _ _ _ => false
  | .vwadduWv _ _ _ _ => false
  | .vwaddVv _ _ _ _ => false
  | .vwaddVx _ _ _ _ => false
  | .vwaddWv _ _ _ _ => false
  | .vwmuluVv _ _ _ _ => false
  | .vwmuluVx _ _ _ _ => false
  | .vwmulVv _ _ _ _ => false
  | .vwmulVx _ _ _ _ => false
  | .vpermVv _ _ _ _ => false
  | .vslideVx _ _ _ _ => false
  | .vslideVi _ _ _ _ => false
  | .vmpopc _ _ _ => false
  | .vmfirst _ _ _ => false
  | .vmprefix _ _ _ => false
  | .viota _ _ _ => false
  | .vid _ _ => false
  | .vmnot _ _ => false
  | .vlutVv _ _ _ _ => false
  | .vmvSX _ _ => false
  | .vunpk _ _ _ _ => false
  | .vcompress _ _ => false
  | .vexpand _ _ => false
  | .vmvXS _ _ => false
  | .vmvVV _ _ => false
  | .vmergeVvm _ _ _ => false
  | .vmvVX _ _ => false
  | .vmergeVxm _ _ _ => false
  | .vreshape _ _ _ _ => false
  | .vfaddVv _ _ _ _ => false
  | .vfaddVf _ _ _ _ => false
  | .vftsumVs _ _ _ _ => false
  | .vfsubVv _ _ _ _ => false
  | .vfsubVf _ _ _ _ => false
  | .vfosumVs _ _ _ _ => false
  | .vfmulVv _ _ _ _ => false
  | .vfmulVf _ _ _ _ => false
  | .vfdivVv _ _ _ _ => false
  | .vfdivVf _ _ _ _ => false
  | .vfminVv _ _ _ _ => false
  | .vfminVf _ _ _ _ => false
  | .vfminVs _ _ _ _ => false
  | .vfmaxVv _ _ _ _ => false
  | .vfmaxVf _ _ _ _ => false
  | .vfmaxVs _ _ _ _ => false
  | .vfmaccVv _ _ _ _ => false
  | .vfmaccVf _ _ _ _ => false
  | .vfmsacVv _ _ _ _ => false
  | .vfmsacVf _ _ _ _ => false
  | .vfnmaccVv _ _ _ _ => false
  | .vfnmaccVf _ _ _ _ => false
  | .vfnmsacVv _ _ _ _ => false
  | .vfnmsacVf _ _ _ _ => false
  | .vfsgnjVv _ _ _ _ => false
  | .vfsgnjVf _ _ _ _ => false
  | .vfsgnjnVv _ _ _ _ => false
  | .vfsgnjnVf _ _ _ _ => false
  | .vfcmpVv _ _ _ _ _ => false
  | .vfcmpVf _ _ _ _ _ => false
  | .vfsqrt _ _ _ => false
  | .vfclass _ _ _ => false
  | .vfexp2 _ _ _ => false
  | .vfrcp _ _ _ => false
  | .vflog2 _ _ _ => false
  | .vfwmaccF16Vv _ _ _ _ => false
  | .vfwmaccF16Vf _ _ _ _ => false
  | .vfwmaccBf16Vv _ _ _ _ => false
  | .vfwmaccBf16Vf _ _ _ _ => false
  | .vfcvt _ _ _ _ _ => false
  | .vfwdotbs _ _ _ _ _ _ => false
  | .vseed _ => false
  | .vsbase _ => false
  | .vsclVx _ => false
  | .vbq _ _ _ _ => false
  | .vbdq _ _ _ _ => false
  | .vfredbs _ _ _ _ => false
  | .vscl _ => false
  | .vleE _ _ _ _ _ _ => false
  | .vseE _ _ _ _ _ _ => false
  | .vlseE _ _ _ _ _ _ _ => false
  | .vsseE _ _ _ _ _ _ _ => false
  | .vlxeE _ _ _ _ _ _ _ => false
  | .vsxeE _ _ _ _ _ _ _ => false
  | .vlt2E _ _ _ _ _ _ => false
  | .vst2E _ _ _ _ _ _ => false
  | .vlr _ _ _ _ => false
  | .vsr _ _ _ _ => false
  | .loadLanded _ _ => true
  | .vprefetch _ _ _ _ => false
  | .vresid _ _ _ _ => false
  | .mdiscard _ _ _ _ => false
  | .cclean _ _ _ _ => false
  | .cinval _ _ _ _ => false
  | .tlbinv _ _ _ _ => false
  | .l2conv _ _ _ _ => false
  | .l2rest _ _ _ _ => false
  | .pageRevival _ _ => true
  | .vamo _ _ _ _ _ => false
  | .vredmem _ _ _ _ => false
  | .vglk _ _ _ _ => false
  | .vscc _ _ _ _ _ => false
  | .kfence _ _ _ => false
  | .vfencebar _ _ => false
  | .barinit _ _ _ => false
  | .barwait _ _ _ => false
  | .qdrain _ => false
  | .reservationTimeout _ => true
  | .vectorReservationTimeout _ _ => true
  | .tagScrub _ _ => true
  | .lmode _ => false
  | .lmodeDrained _ => true
  | .lmodeSwitchDone _ => true
  | .mclaim _ => false
  | .mclaimRx _ => false
  | .mrelease _ => false
  | .mtzero _ => false
  | .mtdrain _ => false
  | .mchainTacc0 _ _ _ _ => false
  | .mchainTacc1 _ _ _ _ => false
  | .chainLanded _ _ => true
  | .mslotld _ _ => false
  | .slotFilled _ _ => true
  | .mwloadGroup0 _ _ => false
  | .mwloadGroup1 _ _ => false
  | .mtmv _ _ _ => false
  | .mtmvc _ _ _ => false
  | .mvtm _ _ _ => false
  | .mvtmc _ _ _ => false
  | .mopa _ _ _ _ _ => false
  | .mopak _ _ _ _ _ => false
  | .mws _ _ _ _ => false
  | .mtbcast _ _ _ => false
  | .mtwait _ _ => false
  | .mtqrd _ _ => false
  | .mtqwr _ _ => false
  | .mtresume _ _ => false
  | .mtresumeSkip _ _ => false
  | .mtkill _ _ => false
  | .mtfault _ _ _ => false
  | .mtfetch _ => false
  | .mtfetchNz _ _ => false
  | .mtfetchZ _ _ => false
  | .mtstop => false
  | .mtsend _ _ _ => false
  | .mtrecv _ _ _ => false
  | .mtid _ _ => false
  | .blockFetch _ _ => true
  | .mtIssue _ _ => true
  | .mtWordComplete _ _ => true
  | .mtUnblock _ _ => true
  | .escapeMove _ => true
  | .cpissue _ _ _ => false
  | .cpissuePut _ _ _ => false
  | .cpissueGet _ _ _ => false
  | .cpwait _ _ => false
  | .sleeptil _ _ => false
  | .cpsusp _ _ => false
  | .cpresm _ _ => false
  | .cpcancel _ _ => false
  | .cpstat _ _ _ => false
  | .copyAccept _ => true
  | .copyBegin _ _ => true
  | .copyDone _ _ _ => true
  | .copyFault _ _ => true
  | .copyStop _ _ _ => true
  | .promiseMiss _ _ => true
  | .ctxsave _ _ => false
  | .ctxload => false
  | .kfail _ _ => false
  | .trapset _ _ _ => false
  | .trapsetRet => false
  | .storageErrorTrap _ => true
  | .pwreq _ _ _ => false
  | .pwpin _ _ => false
  | .pwgrant _ _ => false
  | .pwslot _ _ _ => false
  | .pwstat _ _ _ => false
  | .tokenRefill => true
  | .coreQuiet _ => true
  | .heldLoadRelease _ => true
  | .coreGate _ => true
  | .coreWakeReady _ => true
  | .railAtTarget _ => true
  | .clockAtLevel _ => true
  | .ringLatch _ => true
  | .limitRecordUpdate _ _ _ _ => true
  | .telemetrySample => true
  | .hbmLaneLend _ _ => true
  | .hbmLaneReturn _ _ => true
  | .correctedError _ _ _ _ _ => true
  | .uncorrectableError _ _ _ _ _ => true
  | .fatalError _ _ _ _ => true
  | .moduleReset => true
  | .go _ => true
  | .bootVerify => true
  | .maquetteService _ => true
  | .fullService _ => true
  | .tail _ _ => true
  | .launchPacket _ => true
  | .hostWrite _ _ => true
  | .hostRead _ _ => true
  | .hostAtomicop _ _ _ _ _ => true
  | .atsInvalidation _ _ => true
  | .junctionPortDown _ => true
  | .portRetrain _ => true
  | .maromFailover => true
  | .kmctlTsReset _ => true
  | .kmctlTsSet _ => true
  | .registerWrite _ _ _ => true
  | .junctionPortRequest _ _ _ _ => true
  | .wayDrainComplete _ _ => true

end Sys2Proof
end

