-- ==== Sys2Proof/WellFormed.lean ====
section
/-! DEFINITION. Which instructions are well formed: the field values that the entries of the spec accept
(02_encoding R35, R36, R38 to R40). A word whose fields fail this check is no instruction. -/

namespace Sys2Proof

/-- The field values an encoded row accepts (R40): the rounding mode of F (R59), the modes of fence (R61),
the must-understand hint (R35), tiles and slots (R36), and the codes each entry lists. -/
def Instr.wellFormed : Instr → Bool
  | .lui _ _ => true
  | .auipc _ _ => true
  | .jal _ _ => true
  | .jalr _ _ _ => true
  | .beq _ _ _ => true
  | .bne _ _ _ => true
  | .blt _ _ _ => true
  | .bge _ _ _ => true
  | .bltu _ _ _ => true
  | .bgeu _ _ _ => true
  | .lb _ _ _ => true
  | .lh _ _ _ => true
  | .lw _ _ _ => true
  | .ld _ _ _ => true
  | .lbu _ _ _ => true
  | .lhu _ _ _ => true
  | .lwu _ _ _ => true
  | .sb _ _ _ => true
  | .sh _ _ _ => true
  | .sw _ _ _ => true
  | .sd _ _ _ => true
  | .addi _ _ _ => true
  | .slti _ _ _ => true
  | .sltiu _ _ _ => true
  | .xori _ _ _ => true
  | .ori _ _ _ => true
  | .andi _ _ _ => true
  | .slli _ _ _ => true
  | .srli _ _ _ => true
  | .srai _ _ _ => true
  | .addiw _ _ _ => true
  | .slliw _ _ _ => true
  | .srliw _ _ _ => true
  | .sraiw _ _ _ => true
  | .add _ _ _ => true
  | .sll _ _ _ => true
  | .slt _ _ _ => true
  | .sltu _ _ _ => true
  | .xor _ _ _ => true
  | .srl _ _ _ => true
  | .or _ _ _ => true
  | .and _ _ _ => true
  | .sub _ _ _ => true
  | .sra _ _ _ => true
  | .mul _ _ _ => true
  | .mulh _ _ _ => true
  | .mulhsu _ _ _ => true
  | .mulhu _ _ _ => true
  | .div _ _ _ => true
  | .divu _ _ _ => true
  | .rem _ _ _ => true
  | .remu _ _ _ => true
  | .addw _ _ _ => true
  | .sllw _ _ _ => true
  | .srlw _ _ _ => true
  | .subw _ _ _ => true
  | .sraw _ _ _ => true
  | .mulw _ _ _ => true
  | .divw _ _ _ => true
  | .divuw _ _ _ => true
  | .remw _ _ _ => true
  | .remuw _ _ _ => true
  | .fence fm _ _ _ _ => (fm == 0#4 || fm == 8#4)
  | .fenceI _ _ _ => true
  | .amoaddW _ _ _ _ _ => true
  | .amoaddD _ _ _ _ _ => true
  | .amoswapW _ _ _ _ _ => true
  | .amoswapD _ _ _ _ _ => true
  | .lrW _ _ _ _ => true
  | .lrD _ _ _ _ => true
  | .scW _ _ _ _ _ => true
  | .scD _ _ _ _ _ => true
  | .amoxorW _ _ _ _ _ => true
  | .amoxorD _ _ _ _ _ => true
  | .amoorW _ _ _ _ _ => true
  | .amoorD _ _ _ _ _ => true
  | .amoandW _ _ _ _ _ => true
  | .amoandD _ _ _ _ _ => true
  | .amominW _ _ _ _ _ => true
  | .amominD _ _ _ _ _ => true
  | .amomaxW _ _ _ _ _ => true
  | .amomaxD _ _ _ _ _ => true
  | .amominuW _ _ _ _ _ => true
  | .amominuD _ _ _ _ _ => true
  | .amomaxuW _ _ _ _ _ => true
  | .amomaxuD _ _ _ _ _ => true
  | .ecall => true
  | .ebreak => true
  | .sret => true
  | .mret => true
  | .wfi => true
  | .sfenceVma _ _ => true
  | .csrrw _ _ _ => true
  | .csrrs _ _ _ => true
  | .csrrc _ _ _ => true
  | .csrrwi _ _ _ => true
  | .csrrsi _ _ _ => true
  | .csrrci _ _ _ => true
  | .flw _ _ _ => true
  | .fsw _ _ _ => true
  | .fmaddS _ _ _ _ rm => rm != 5#3 && rm != 6#3
  | .fmsubS _ _ _ _ rm => rm != 5#3 && rm != 6#3
  | .fnmsubS _ _ _ _ rm => rm != 5#3 && rm != 6#3
  | .fnmaddS _ _ _ _ rm => rm != 5#3 && rm != 6#3
  | .faddS _ _ _ rm => rm != 5#3 && rm != 6#3
  | .fsubS _ _ _ rm => rm != 5#3 && rm != 6#3
  | .fmulS _ _ _ rm => rm != 5#3 && rm != 6#3
  | .fdivS _ _ _ rm => rm != 5#3 && rm != 6#3
  | .fsqrtS _ _ rm => rm != 5#3 && rm != 6#3
  | .fsgnjS _ _ _ => true
  | .fsgnjnS _ _ _ => true
  | .fsgnjxS _ _ _ => true
  | .fminS _ _ _ => true
  | .fmaxS _ _ _ => true
  | .fleS _ _ _ => true
  | .fltS _ _ _ => true
  | .feqS _ _ _ => true
  | .fcvtWS _ _ rm => rm != 5#3 && rm != 6#3
  | .fcvtWuS _ _ rm => rm != 5#3 && rm != 6#3
  | .fcvtLS _ _ rm => rm != 5#3 && rm != 6#3
  | .fcvtLuS _ _ rm => rm != 5#3 && rm != 6#3
  | .fcvtSW _ _ rm => rm != 5#3 && rm != 6#3
  | .fcvtSWu _ _ rm => rm != 5#3 && rm != 6#3
  | .fcvtSL _ _ rm => rm != 5#3 && rm != 6#3
  | .fcvtSLu _ _ rm => rm != 5#3 && rm != 6#3
  | .fmvXW _ _ => true
  | .fclassS _ _ => true
  | .fmvWX _ _ => true
  | .nonInstructionWord _ => true
  | .kclock _ => true
  | .kident _ _ => true
  | .cspawn _ _ => true
  | .cjoin _ _ => true
  | .stclaim _ => true
  | .cfinish => true
  | .cyield _ => true
  | .rgnmake _ _ _ => true
  | .rgnsync _ _ _ => true
  | .cinfo _ _ => true
  | .selection _ => true
  | .dispatch _ => true
  | .preemptionRequest _ _ => true
  | .interruptTrap _ _ => true
  | .quiesceStop _ => true
  | .faultReport _ => true
  | .vcfg _ _ _ => true
  | .vregs _ code => (code == 1#5 || code == 2#5 || code == 3#5)
  | .vcfgi _ _ _ => true
  | .vaddVv _ _ _ _ => true
  | .vaddVx _ _ _ _ => true
  | .vaddVi _ _ _ _ => true
  | .vaddVs _ _ _ _ => true
  | .vsubVv _ _ _ _ => true
  | .vrsubVx _ _ _ _ => true
  | .vrsubVi _ _ _ _ => true
  | .vminuVv _ _ _ _ => true
  | .vminuVx _ _ _ _ => true
  | .vminuVs _ _ _ _ => true
  | .vminVv _ _ _ _ => true
  | .vminVx _ _ _ _ => true
  | .vminVs _ _ _ _ => true
  | .vmaxuVv _ _ _ _ => true
  | .vmaxuVx _ _ _ _ => true
  | .vmaxuVs _ _ _ _ => true
  | .vmaxVv _ _ _ _ => true
  | .vmaxVx _ _ _ _ => true
  | .vmaxVs _ _ _ _ => true
  | .vandVv _ _ _ _ => true
  | .vandVx _ _ _ _ => true
  | .vandVi _ _ _ _ => true
  | .vandMm _ _ _ => true
  | .vandVs _ _ _ _ => true
  | .vorVv _ _ _ _ => true
  | .vorVx _ _ _ _ => true
  | .vorVi _ _ _ _ => true
  | .vorMm _ _ _ => true
  | .vorVs _ _ _ _ => true
  | .vxorVv _ _ _ _ => true
  | .vxorVx _ _ _ _ => true
  | .vxorVi _ _ _ _ => true
  | .vxorMm _ _ _ => true
  | .vxorVs _ _ _ _ => true
  | .vsllVv _ _ _ _ => true
  | .vsllVx _ _ _ _ => true
  | .vsllVi _ _ _ _ => true
  | .vsrlVv _ _ _ _ => true
  | .vsrlVx _ _ _ _ => true
  | .vsrlVi _ _ _ _ => true
  | .vnclipuWv _ _ _ _ => true
  | .vsraVv _ _ _ _ => true
  | .vsraVx _ _ _ _ => true
  | .vsraVi _ _ _ _ => true
  | .vnclipWv _ _ _ _ => true
  | .vmulVv _ _ _ _ => true
  | .vmulVx _ _ _ _ => true
  | .vmulhVv _ _ _ _ => true
  | .vmulhVx _ _ _ _ => true
  | .vmaccVv _ _ _ _ => true
  | .vmaccVx _ _ _ _ => true
  | .vdot4Vv _ _ _ _ => true
  | .vdot4Vx _ _ _ _ => true
  | .vdivuVv _ _ _ _ => true
  | .vdivuVx _ _ _ _ => true
  | .vdivVv _ _ _ _ => true
  | .vdivVx _ _ _ _ => true
  | .vremuVv _ _ _ _ => true
  | .vremuVx _ _ _ _ => true
  | .vremVv _ _ _ _ => true
  | .vremVx _ _ _ _ => true
  | .vsadduVv _ _ _ _ => true
  | .vsadduVx _ _ _ _ => true
  | .vsadduVi _ _ _ _ => true
  | .vsaddVv _ _ _ _ => true
  | .vsaddVx _ _ _ _ => true
  | .vsaddVi _ _ _ _ => true
  | .vssubuVv _ _ _ _ => true
  | .vssubuVx _ _ _ _ => true
  | .vssubVv _ _ _ _ => true
  | .vssubVx _ _ _ _ => true
  | .vcmpVv _ _ _ _ _ => true
  | .vcmpVx _ _ _ _ _ => true
  | .vcmpVi _ _ _ _ _ => true
  | .vwadduVv _ _ _ _ => true
  | .vwadduVx _ _ _ _ => true
  | .vwadduWv _ _ _ _ => true
  | .vwaddVv _ _ _ _ => true
  | .vwaddVx _ _ _ _ => true
  | .vwaddWv _ _ _ _ => true
  | .vwmuluVv _ _ _ _ => true
  | .vwmuluVx _ _ _ _ => true
  | .vwmulVv _ _ _ _ => true
  | .vwmulVx _ _ _ _ => true
  | .vpermVv _ _ _ _ => true
  | .vslideVx _ _ _ _ => true
  | .vslideVi _ _ _ _ => true
  | .vmpopc _ _ _ => true
  | .vmfirst _ _ _ => true
  | .vmprefix _ _ _ => true
  | .viota _ _ _ => true
  | .vid _ _ => true
  | .vmnot _ _ => true
  | .vlutVv _ _ _ _ => true
  | .vmvSX _ _ => true
  | .vunpk _ _ _ _ => true
  | .vcompress _ _ => true
  | .vexpand _ _ => true
  | .vmvXS _ _ => true
  | .vmvVV _ _ => true
  | .vmergeVvm _ _ _ => true
  | .vmvVX _ _ => true
  | .vmergeVxm _ _ _ => true
  | .vreshape _ _ _ _ => true
  | .vfaddVv _ _ _ _ => true
  | .vfaddVf _ _ _ _ => true
  | .vftsumVs _ _ _ _ => true
  | .vfsubVv _ _ _ _ => true
  | .vfsubVf _ _ _ _ => true
  | .vfosumVs _ _ _ _ => true
  | .vfmulVv _ _ _ _ => true
  | .vfmulVf _ _ _ _ => true
  | .vfdivVv _ _ _ _ => true
  | .vfdivVf _ _ _ _ => true
  | .vfminVv _ _ _ _ => true
  | .vfminVf _ _ _ _ => true
  | .vfminVs _ _ _ _ => true
  | .vfmaxVv _ _ _ _ => true
  | .vfmaxVf _ _ _ _ => true
  | .vfmaxVs _ _ _ _ => true
  | .vfmaccVv _ _ _ _ => true
  | .vfmaccVf _ _ _ _ => true
  | .vfmsacVv _ _ _ _ => true
  | .vfmsacVf _ _ _ _ => true
  | .vfnmaccVv _ _ _ _ => true
  | .vfnmaccVf _ _ _ _ => true
  | .vfnmsacVv _ _ _ _ => true
  | .vfnmsacVf _ _ _ _ => true
  | .vfsgnjVv _ _ _ _ => true
  | .vfsgnjVf _ _ _ _ => true
  | .vfsgnjnVv _ _ _ _ => true
  | .vfsgnjnVf _ _ _ _ => true
  | .vfcmpVv _ _ _ _ _ => true
  | .vfcmpVf _ _ _ _ _ => true
  | .vfsqrt _ _ _ => true
  | .vfclass _ _ _ => true
  | .vfexp2 _ _ _ => true
  | .vfrcp _ _ _ => true
  | .vflog2 _ _ _ => true
  | .vfwmaccF16Vv _ _ _ _ => true
  | .vfwmaccF16Vf _ _ _ _ => true
  | .vfwmaccBf16Vv _ _ _ _ => true
  | .vfwmaccBf16Vf _ _ _ _ => true
  | .vfcvt _ _ _ _ _ => true
  | .vfwdotbs _ _ _ _ _ _ => true
  | .vseed _ => true
  | .vsbase _ => true
  | .vsclVx _ => true
  | .vbq _ _ _ _ => true
  | .vbdq _ _ _ _ => true
  | .vfredbs _ _ _ _ => true
  | .vscl _ => true
  | .vleE mu hint _ _ _ _ => !(mu == 1#1 && hint == 3#2)
  | .vseE mu hint _ _ _ _ => !(mu == 1#1 && hint == 3#2)
  | .vlseE mu hint _ _ _ _ _ => !(mu == 1#1 && hint == 3#2)
  | .vsseE mu hint _ _ _ _ _ => !(mu == 1#1 && hint == 3#2)
  | .vlxeE mu hint _ _ _ _ _ => !(mu == 1#1 && hint == 3#2)
  | .vsxeE mu hint _ _ _ _ _ => !(mu == 1#1 && hint == 3#2)
  | .vlt2E mu hint _ _ _ _ => !(mu == 1#1 && hint == 3#2)
  | .vst2E mu hint _ _ _ _ => !(mu == 1#1 && hint == 3#2)
  | .vlr mu hint _ _ => !(mu == 1#1 && hint == 3#2)
  | .vsr mu hint _ _ => !(mu == 1#1 && hint == 3#2)
  | .loadLanded _ _ => true
  | .vprefetch mu hint _ _ => !(mu == 1#1 && hint == 3#2)
  | .vresid mu hint _ _ => !(mu == 1#1 && hint == 3#2)
  | .mdiscard mu hint _ _ => !(mu == 1#1 && hint == 3#2)
  | .cclean mu hint _ _ => !(mu == 1#1 && hint == 3#2)
  | .cinval mu hint _ _ => !(mu == 1#1 && hint == 3#2)
  | .tlbinv mu hint _ _ => !(mu == 1#1 && hint == 3#2)
  | .l2conv mu hint _ _ => !(mu == 1#1 && hint == 3#2)
  | .l2rest mu hint _ _ => !(mu == 1#1 && hint == 3#2)
  | .pageRevival _ _ => true
  | .vamo op _ _ _ _ => op != 7#3
  | .vredmem op _ _ _ => decide (op ≤ 8#5)
  | .vglk _ _ _ _ => true
  | .vscc _ _ _ _ _ => true
  | .kfence _ _ scope => decide (scope ≤ 4#3)
  | .vfencebar _ _ => true
  | .barinit _ _ _ => true
  | .barwait _ _ _ => true
  | .qdrain _ => true
  | .reservationTimeout _ => true
  | .vectorReservationTimeout _ _ => true
  | .tagScrub _ _ => true
  | .lmode mode => decide (mode ≤ 2#5)
  | .lmodeDrained _ => true
  | .lmodeSwitchDone _ => true
  | .mclaim slot => decide (slot < 8#5)
  | .mclaimRx slot => decide (slot < 8#5)
  | .mrelease slot => decide (slot < 8#5)
  | .mtzero tile => decide (tile < 2#5)
  | .mtdrain tile => decide (tile < 2#5)
  | .mchainTacc0 _ _ _ _ => true
  | .mchainTacc1 _ _ _ _ => true
  | .chainLanded _ _ => true
  | .mslotld slot _ => decide (slot < 8#5)
  | .slotFilled _ _ => true
  | .mwloadGroup0 _ slot => decide (slot < 8#5)
  | .mwloadGroup1 wf slot => decide (slot < 8#5) && wf != 3#2
  | .mtmv _ tile _ => decide (tile < 2#5)
  | .mtmvc _ tile _ => decide (tile < 2#5)
  | .mvtm tile _ _ => decide (tile < 2#5)
  | .mvtmc tile _ _ => decide (tile < 2#5)
  | .mopa g fm tile _ _ => decide (tile < 2#5) && (g == 0#1 || fm != 3#2)
  | .mopak g fm tile _ _ => decide (tile < 2#5) && (g == 0#1 || fm != 3#2)
  | .mws g fm tile _ => decide (tile < 2#5) && (g == 0#1 || fm == 0#2)
  | .mtbcast _ _ _ => true
  | .mtwait _ _ => true
  | .mtqrd _ _ => true
  | .mtqwr _ _ => true
  | .mtresume _ _ => true
  | .mtresumeSkip _ _ => true
  | .mtkill _ _ => true
  | .mtfault _ _ _ => true
  | .mtfetch _ => true
  | .mtfetchNz _ _ => true
  | .mtfetchZ _ _ => true
  | .mtstop => true
  | .mtsend _ _ _ => true
  | .mtrecv _ _ _ => true
  | .mtid _ _ => true
  | .blockFetch _ _ => true
  | .mtIssue _ _ => true
  | .mtWordComplete _ _ => true
  | .mtUnblock _ _ => true
  | .escapeMove _ => true
  | .cpissue _ _ _ => true
  | .cpissuePut _ _ _ => true
  | .cpissueGet _ _ _ => true
  | .cpwait _ _ => true
  | .sleeptil _ _ => true
  | .cpsusp _ _ => true
  | .cpresm _ _ => true
  | .cpcancel _ _ => true
  | .cpstat _ _ _ => true
  | .copyAccept _ => true
  | .copyBegin _ _ => true
  | .copyDone _ _ _ => true
  | .copyFault _ _ => true
  | .copyStop _ _ _ => true
  | .promiseMiss _ _ => true
  | .ctxsave _ _ => true
  | .ctxload => true
  | .kfail _ _ => true
  | .trapset _ _ _ => true
  | .trapsetRet => true
  | .storageErrorTrap _ => true
  | .pwreq _ _ _ => true
  | .pwpin _ _ => true
  | .pwgrant _ _ => true
  | .pwslot _ _ _ => true
  | .pwstat _ _ _ => true
  | .tokenRefill => true
  | .coreQuiet _ => true
  | .heldLoadRelease _ => true
  | .coreGate _ => true
  | .coreWakeReady _ => true
  | .railAtTarget _ => true
  | .clockAtLevel _ => true
  | .ringLatch _ => true
  | .limitRecordUpdate _ _ _ _ => true
  | .telemetrySample => true
  | .hbmLaneLend _ _ => true
  | .hbmLaneReturn _ _ => true
  | .correctedError _ _ _ _ _ => true
  | .uncorrectableError _ _ _ _ _ => true
  | .fatalError _ _ _ _ => true
  | .moduleReset => true
  | .go _ => true
  | .bootVerify => true
  | .maquetteService _ => true
  | .fullService _ => true
  | .tail _ _ => true
  | .launchPacket _ => true
  | .hostWrite _ _ => true
  | .hostRead _ _ => true
  | .hostAtomicop _ _ _ _ _ => true
  | .atsInvalidation _ _ => true
  | .junctionPortDown _ => true
  | .portRetrain _ => true
  | .maromFailover => true
  | .kmctlTsReset _ => true
  | .kmctlTsSet _ => true
  | .registerWrite _ _ _ => true
  | .junctionPortRequest _ _ _ _ => true
  | .wayDrainComplete _ _ => true

end Sys2Proof
end

