-- ==== Sys2Proof/Decode.lean ====
section
/-! DEFINITION. Decoding (02_encoding R28 to R40): total on any 32-bit word, rejecting by name, and the encoder
written from the same tables. The word is read by its major opcode, then by the fields of that opcode's format.
The decoder is marked noncomputable only because compiled code cannot build a value of a type with more than 245
constructors; the kernel evaluates it. -/

namespace Sys2Proof

/-- Why a word is no instruction (R40). Every one of these raises cause 2 but allZeros, which raises cause 48. -/
inductive DecodeError where
  /-- The all-zeros word, the pool guard (R49). -/
  | allZeros
  /-- Bits [1:0] are not 0b11: not a 32-bit encoding (R28). -/
  | encodingLength
  /-- A major opcode that R29 marks illegal. -/
  | majorOpcode
  /-- No instruction is assigned to these function fields (R40). -/
  | unassigned
  /-- A field value that the entry of the instruction does not accept (R35, R36, R40). -/
  | fieldValue
deriving DecidableEq, Repr

/-- The `len` bits of a word from bit `lo` up. -/
def bits (w : Word32) (lo len : Nat) : BitVec len := w.extractLsb' lo len

/-- Bits of a 20-bit immediate. -/
def bits20 (v : BitVec 20) (lo len : Nat) : BitVec len := v.extractLsb' lo len

/-- Bits of a 12-bit immediate. -/
def bits12 (v : BitVec 12) (lo len : Nat) : BitVec len := v.extractLsb' lo len

/-- The offset field of JAL, bits [20:1] of the byte offset (R59). -/
def jalOff (w : Word32) : BitVec 20 := bits w 31 1 ++ bits w 12 8 ++ bits w 20 1 ++ bits w 21 10

/-- The offset field of a branch, bits [12:1] of the byte offset (R59). -/
def branchOff (w : Word32) : BitVec 12 := bits w 31 1 ++ bits w 7 1 ++ bits w 25 6 ++ bits w 8 4

/-- The immediate of a store (R59). -/
def storeImm (w : Word32) : BitVec 12 := bits w 25 7 ++ bits w 7 5

/-- LOAD. -/
noncomputable def decodeLoad (w : Word32) : Except DecodeError Instr :=
  if bits w 12 3 = 0#3 then .ok (.lb (bits w 7 5) (bits w 15 5) (bits w 20 12))
  else if bits w 12 3 = 1#3 then .ok (.lh (bits w 7 5) (bits w 15 5) (bits w 20 12))
  else if bits w 12 3 = 2#3 then .ok (.lw (bits w 7 5) (bits w 15 5) (bits w 20 12))
  else if bits w 12 3 = 3#3 then .ok (.ld (bits w 7 5) (bits w 15 5) (bits w 20 12))
  else if bits w 12 3 = 4#3 then .ok (.lbu (bits w 7 5) (bits w 15 5) (bits w 20 12))
  else if bits w 12 3 = 5#3 then .ok (.lhu (bits w 7 5) (bits w 15 5) (bits w 20 12))
  else if bits w 12 3 = 6#3 then .ok (.lwu (bits w 7 5) (bits w 15 5) (bits w 20 12))
  else .error .unassigned

/-- LOAD-FP. -/
noncomputable def decodeLoadFp (w : Word32) : Except DecodeError Instr :=
  if bits w 12 3 = 2#3 then .ok (.flw (bits w 7 5) (bits w 15 5) (bits w 20 12))
  else .error .unassigned

/-- custom-0, format KA (R30), bits [14:12] = 0. -/
noncomputable def decodeKa0 (w : Word32) : Except DecodeError Instr :=
  if bits w 26 6 = 0#6 then .ok (.vaddVv (bits w 7 5) (bits w 20 5) (bits w 15 5) (bits w 25 1))
  else if bits w 26 6 = 1#6 then .ok (.vsubVv (bits w 7 5) (bits w 20 5) (bits w 15 5) (bits w 25 1))
  else if bits w 26 6 = 2#6 then .ok (.vminuVv (bits w 7 5) (bits w 20 5) (bits w 15 5) (bits w 25 1))
  else if bits w 26 6 = 3#6 then .ok (.vminVv (bits w 7 5) (bits w 20 5) (bits w 15 5) (bits w 25 1))
  else if bits w 26 6 = 4#6 then .ok (.vmaxuVv (bits w 7 5) (bits w 20 5) (bits w 15 5) (bits w 25 1))
  else if bits w 26 6 = 5#6 then .ok (.vmaxVv (bits w 7 5) (bits w 20 5) (bits w 15 5) (bits w 25 1))
  else if bits w 26 6 = 6#6 then .ok (.vandVv (bits w 7 5) (bits w 20 5) (bits w 15 5) (bits w 25 1))
  else if bits w 26 6 = 7#6 then .ok (.vorVv (bits w 7 5) (bits w 20 5) (bits w 15 5) (bits w 25 1))
  else if bits w 26 6 = 8#6 then .ok (.vxorVv (bits w 7 5) (bits w 20 5) (bits w 15 5) (bits w 25 1))
  else if bits w 26 6 = 9#6 then .ok (.vsllVv (bits w 7 5) (bits w 20 5) (bits w 15 5) (bits w 25 1))
  else if bits w 26 6 = 10#6 then .ok (.vsrlVv (bits w 7 5) (bits w 20 5) (bits w 15 5) (bits w 25 1))
  else if bits w 26 6 = 11#6 then .ok (.vsraVv (bits w 7 5) (bits w 20 5) (bits w 15 5) (bits w 25 1))
  else if bits w 26 6 = 12#6 then .ok (.vmulVv (bits w 7 5) (bits w 20 5) (bits w 15 5) (bits w 25 1))
  else if bits w 26 6 = 13#6 then .ok (.vmulhVv (bits w 7 5) (bits w 20 5) (bits w 15 5) (bits w 25 1))
  else if bits w 26 6 = 14#6 then .ok (.vmaccVv (bits w 7 5) (bits w 20 5) (bits w 15 5) (bits w 25 1))
  else if bits w 26 6 = 15#6 then .ok (.vdot4Vv (bits w 7 5) (bits w 20 5) (bits w 15 5) (bits w 25 1))
  else if bits w 26 6 = 16#6 then .ok (.vdivuVv (bits w 7 5) (bits w 20 5) (bits w 15 5) (bits w 25 1))
  else if bits w 26 6 = 17#6 then .ok (.vdivVv (bits w 7 5) (bits w 20 5) (bits w 15 5) (bits w 25 1))
  else if bits w 26 6 = 18#6 then .ok (.vremuVv (bits w 7 5) (bits w 20 5) (bits w 15 5) (bits w 25 1))
  else if bits w 26 6 = 19#6 then .ok (.vremVv (bits w 7 5) (bits w 20 5) (bits w 15 5) (bits w 25 1))
  else if bits w 26 6 = 20#6 then .ok (.vsadduVv (bits w 7 5) (bits w 20 5) (bits w 15 5) (bits w 25 1))
  else if bits w 26 6 = 21#6 then .ok (.vsaddVv (bits w 7 5) (bits w 20 5) (bits w 15 5) (bits w 25 1))
  else if bits w 26 6 = 22#6 then .ok (.vssubuVv (bits w 7 5) (bits w 20 5) (bits w 15 5) (bits w 25 1))
  else if bits w 26 6 = 23#6 then .ok (.vssubVv (bits w 7 5) (bits w 20 5) (bits w 15 5) (bits w 25 1))
  else if bits w 26 6 = 24#6 then .ok (.vcmpVv (bits w 9 3) (bits w 7 2) (bits w 20 5) (bits w 15 5) (bits w 25 1))
  else if bits w 26 6 = 25#6 then .ok (.vwadduVv (bits w 7 5) (bits w 20 5) (bits w 15 5) (bits w 25 1))
  else if bits w 26 6 = 26#6 then .ok (.vwaddVv (bits w 7 5) (bits w 20 5) (bits w 15 5) (bits w 25 1))
  else if bits w 26 6 = 27#6 then .ok (.vwmuluVv (bits w 7 5) (bits w 20 5) (bits w 15 5) (bits w 25 1))
  else if bits w 26 6 = 28#6 then .ok (.vwmulVv (bits w 7 5) (bits w 20 5) (bits w 15 5) (bits w 25 1))
  else if bits w 26 6 = 29#6 then .ok (.vpermVv (bits w 7 5) (bits w 20 5) (bits w 15 5) (bits w 25 1))
  else if bits w 26 6 = 30#6 then .ok (.vlutVv (bits w 7 5) (bits w 20 5) (bits w 15 5) (bits w 25 1))
  else if bits w 20 12 = 2016#12 then .ok (.vmvVV (bits w 7 5) (bits w 15 5))
  else if bits w 25 7 = 62#7 then .ok (.vmergeVvm (bits w 7 5) (bits w 20 5) (bits w 15 5))
  else if bits w 26 6 = 32#6 then .ok (.vfaddVv (bits w 7 5) (bits w 20 5) (bits w 15 5) (bits w 25 1))
  else if bits w 26 6 = 33#6 then .ok (.vfsubVv (bits w 7 5) (bits w 20 5) (bits w 15 5) (bits w 25 1))
  else if bits w 26 6 = 34#6 then .ok (.vfmulVv (bits w 7 5) (bits w 20 5) (bits w 15 5) (bits w 25 1))
  else if bits w 26 6 = 35#6 then .ok (.vfdivVv (bits w 7 5) (bits w 20 5) (bits w 15 5) (bits w 25 1))
  else if bits w 26 6 = 36#6 then .ok (.vfminVv (bits w 7 5) (bits w 20 5) (bits w 15 5) (bits w 25 1))
  else if bits w 26 6 = 37#6 then .ok (.vfmaxVv (bits w 7 5) (bits w 20 5) (bits w 15 5) (bits w 25 1))
  else if bits w 26 6 = 38#6 then .ok (.vfmaccVv (bits w 7 5) (bits w 20 5) (bits w 15 5) (bits w 25 1))
  else if bits w 26 6 = 39#6 then .ok (.vfmsacVv (bits w 7 5) (bits w 20 5) (bits w 15 5) (bits w 25 1))
  else if bits w 26 6 = 40#6 then .ok (.vfnmaccVv (bits w 7 5) (bits w 20 5) (bits w 15 5) (bits w 25 1))
  else if bits w 26 6 = 41#6 then .ok (.vfnmsacVv (bits w 7 5) (bits w 20 5) (bits w 15 5) (bits w 25 1))
  else if bits w 26 6 = 42#6 then .ok (.vfsgnjVv (bits w 7 5) (bits w 20 5) (bits w 15 5) (bits w 25 1))
  else if bits w 26 6 = 43#6 then .ok (.vfsgnjnVv (bits w 7 5) (bits w 20 5) (bits w 15 5) (bits w 25 1))
  else if bits w 26 6 = 44#6 then .ok (.vfcmpVv (bits w 9 3) (bits w 7 2) (bits w 20 5) (bits w 15 5) (bits w 25 1))
  else if bits w 26 6 = 46#6 then .ok (.vfwmaccF16Vv (bits w 7 5) (bits w 20 5) (bits w 15 5) (bits w 25 1))
  else if bits w 26 6 = 47#6 then .ok (.vfwmaccBf16Vv (bits w 7 5) (bits w 20 5) (bits w 15 5) (bits w 25 1))
  else if bits w 28 4 = 13#4 then .ok (.vfwdotbs (bits w 7 5) (bits w 20 5) (bits w 15 5) (bits w 27 1) (bits w 26 1) (bits w 25 1))
  else .error .unassigned

/-- custom-0, format KA (R30), bits [14:12] = 1. -/
noncomputable def decodeKa1 (w : Word32) : Except DecodeError Instr :=
  if bits w 26 6 = 0#6 then .ok (.vaddVx (bits w 7 5) (bits w 20 5) (bits w 15 5) (bits w 25 1))
  else if bits w 26 6 = 1#6 then .ok (.vrsubVx (bits w 7 5) (bits w 20 5) (bits w 15 5) (bits w 25 1))
  else if bits w 26 6 = 2#6 then .ok (.vminuVx (bits w 7 5) (bits w 20 5) (bits w 15 5) (bits w 25 1))
  else if bits w 26 6 = 3#6 then .ok (.vminVx (bits w 7 5) (bits w 20 5) (bits w 15 5) (bits w 25 1))
  else if bits w 26 6 = 4#6 then .ok (.vmaxuVx (bits w 7 5) (bits w 20 5) (bits w 15 5) (bits w 25 1))
  else if bits w 26 6 = 5#6 then .ok (.vmaxVx (bits w 7 5) (bits w 20 5) (bits w 15 5) (bits w 25 1))
  else if bits w 26 6 = 6#6 then .ok (.vandVx (bits w 7 5) (bits w 20 5) (bits w 15 5) (bits w 25 1))
  else if bits w 26 6 = 7#6 then .ok (.vorVx (bits w 7 5) (bits w 20 5) (bits w 15 5) (bits w 25 1))
  else if bits w 26 6 = 8#6 then .ok (.vxorVx (bits w 7 5) (bits w 20 5) (bits w 15 5) (bits w 25 1))
  else if bits w 26 6 = 9#6 then .ok (.vsllVx (bits w 7 5) (bits w 20 5) (bits w 15 5) (bits w 25 1))
  else if bits w 26 6 = 10#6 then .ok (.vsrlVx (bits w 7 5) (bits w 20 5) (bits w 15 5) (bits w 25 1))
  else if bits w 26 6 = 11#6 then .ok (.vsraVx (bits w 7 5) (bits w 20 5) (bits w 15 5) (bits w 25 1))
  else if bits w 26 6 = 12#6 then .ok (.vmulVx (bits w 7 5) (bits w 20 5) (bits w 15 5) (bits w 25 1))
  else if bits w 26 6 = 13#6 then .ok (.vmulhVx (bits w 7 5) (bits w 20 5) (bits w 15 5) (bits w 25 1))
  else if bits w 26 6 = 14#6 then .ok (.vmaccVx (bits w 7 5) (bits w 20 5) (bits w 15 5) (bits w 25 1))
  else if bits w 26 6 = 15#6 then .ok (.vdot4Vx (bits w 7 5) (bits w 20 5) (bits w 15 5) (bits w 25 1))
  else if bits w 26 6 = 16#6 then .ok (.vdivuVx (bits w 7 5) (bits w 20 5) (bits w 15 5) (bits w 25 1))
  else if bits w 26 6 = 17#6 then .ok (.vdivVx (bits w 7 5) (bits w 20 5) (bits w 15 5) (bits w 25 1))
  else if bits w 26 6 = 18#6 then .ok (.vremuVx (bits w 7 5) (bits w 20 5) (bits w 15 5) (bits w 25 1))
  else if bits w 26 6 = 19#6 then .ok (.vremVx (bits w 7 5) (bits w 20 5) (bits w 15 5) (bits w 25 1))
  else if bits w 26 6 = 20#6 then .ok (.vsadduVx (bits w 7 5) (bits w 20 5) (bits w 15 5) (bits w 25 1))
  else if bits w 26 6 = 21#6 then .ok (.vsaddVx (bits w 7 5) (bits w 20 5) (bits w 15 5) (bits w 25 1))
  else if bits w 26 6 = 22#6 then .ok (.vssubuVx (bits w 7 5) (bits w 20 5) (bits w 15 5) (bits w 25 1))
  else if bits w 26 6 = 23#6 then .ok (.vssubVx (bits w 7 5) (bits w 20 5) (bits w 15 5) (bits w 25 1))
  else if bits w 26 6 = 24#6 then .ok (.vcmpVx (bits w 9 3) (bits w 7 2) (bits w 20 5) (bits w 15 5) (bits w 25 1))
  else if bits w 26 6 = 25#6 then .ok (.vwadduVx (bits w 7 5) (bits w 20 5) (bits w 15 5) (bits w 25 1))
  else if bits w 26 6 = 26#6 then .ok (.vwaddVx (bits w 7 5) (bits w 20 5) (bits w 15 5) (bits w 25 1))
  else if bits w 26 6 = 27#6 then .ok (.vwmuluVx (bits w 7 5) (bits w 20 5) (bits w 15 5) (bits w 25 1))
  else if bits w 26 6 = 28#6 then .ok (.vwmulVx (bits w 7 5) (bits w 20 5) (bits w 15 5) (bits w 25 1))
  else if bits w 26 6 = 29#6 then .ok (.vslideVx (bits w 7 5) (bits w 20 5) (bits w 15 5) (bits w 25 1))
  else if bits w 20 12 = 1952#12 then .ok (.vmvSX (bits w 7 5) (bits w 15 5))
  else if bits w 20 12 = 2016#12 then .ok (.vmvVX (bits w 7 5) (bits w 15 5))
  else if bits w 25 7 = 62#7 then .ok (.vmergeVxm (bits w 7 5) (bits w 20 5) (bits w 15 5))
  else if bits w 20 12 = 3360#12 ∧ bits w 7 5 = 0#5 then .ok (.vseed (bits w 15 5))
  else if bits w 20 12 = 3361#12 ∧ bits w 7 5 = 0#5 then .ok (.vsbase (bits w 15 5))
  else if bits w 20 12 = 3362#12 ∧ bits w 7 5 = 0#5 then .ok (.vsclVx (bits w 15 5))
  else .error .unassigned

/-- custom-0, format KA (R30), bits [14:12] = 2. -/
noncomputable def decodeKa2 (w : Word32) : Except DecodeError Instr :=
  if bits w 26 6 = 0#6 then .ok (.vaddVi (bits w 7 5) (bits w 20 5) (bits w 15 5) (bits w 25 1))
  else if bits w 26 6 = 1#6 then .ok (.vrsubVi (bits w 7 5) (bits w 20 5) (bits w 15 5) (bits w 25 1))
  else if bits w 26 6 = 6#6 then .ok (.vandVi (bits w 7 5) (bits w 20 5) (bits w 15 5) (bits w 25 1))
  else if bits w 26 6 = 7#6 then .ok (.vorVi (bits w 7 5) (bits w 20 5) (bits w 15 5) (bits w 25 1))
  else if bits w 26 6 = 8#6 then .ok (.vxorVi (bits w 7 5) (bits w 20 5) (bits w 15 5) (bits w 25 1))
  else if bits w 26 6 = 9#6 then .ok (.vsllVi (bits w 7 5) (bits w 20 5) (bits w 15 5) (bits w 25 1))
  else if bits w 26 6 = 10#6 then .ok (.vsrlVi (bits w 7 5) (bits w 20 5) (bits w 15 5) (bits w 25 1))
  else if bits w 26 6 = 11#6 then .ok (.vsraVi (bits w 7 5) (bits w 20 5) (bits w 15 5) (bits w 25 1))
  else if bits w 26 6 = 20#6 then .ok (.vsadduVi (bits w 7 5) (bits w 20 5) (bits w 15 5) (bits w 25 1))
  else if bits w 26 6 = 21#6 then .ok (.vsaddVi (bits w 7 5) (bits w 20 5) (bits w 15 5) (bits w 25 1))
  else if bits w 26 6 = 24#6 then .ok (.vcmpVi (bits w 9 3) (bits w 7 2) (bits w 20 5) (bits w 15 5) (bits w 25 1))
  else if bits w 26 6 = 29#6 then .ok (.vslideVi (bits w 7 5) (bits w 20 5) (bits w 15 5) (bits w 25 1))
  else if bits w 26 6 = 30#6 ∧ bits w 19 1 = 0#1 then .ok (.vunpk (bits w 7 5) (bits w 20 5) (bits w 15 4) (bits w 25 1))
  else if bits w 26 6 = 31#6 then .ok (.vreshape (bits w 7 5) (bits w 20 5) (bits w 15 5) (bits w 25 1))
  else .error .unassigned

/-- custom-0, format KA (R30), bits [14:12] = 3. -/
noncomputable def decodeKa3 (w : Word32) : Except DecodeError Instr :=
  if bits w 26 6 = 32#6 then .ok (.vfaddVf (bits w 7 5) (bits w 20 5) (bits w 15 5) (bits w 25 1))
  else if bits w 26 6 = 33#6 then .ok (.vfsubVf (bits w 7 5) (bits w 20 5) (bits w 15 5) (bits w 25 1))
  else if bits w 26 6 = 34#6 then .ok (.vfmulVf (bits w 7 5) (bits w 20 5) (bits w 15 5) (bits w 25 1))
  else if bits w 26 6 = 35#6 then .ok (.vfdivVf (bits w 7 5) (bits w 20 5) (bits w 15 5) (bits w 25 1))
  else if bits w 26 6 = 36#6 then .ok (.vfminVf (bits w 7 5) (bits w 20 5) (bits w 15 5) (bits w 25 1))
  else if bits w 26 6 = 37#6 then .ok (.vfmaxVf (bits w 7 5) (bits w 20 5) (bits w 15 5) (bits w 25 1))
  else if bits w 26 6 = 38#6 then .ok (.vfmaccVf (bits w 7 5) (bits w 20 5) (bits w 15 5) (bits w 25 1))
  else if bits w 26 6 = 39#6 then .ok (.vfmsacVf (bits w 7 5) (bits w 20 5) (bits w 15 5) (bits w 25 1))
  else if bits w 26 6 = 40#6 then .ok (.vfnmaccVf (bits w 7 5) (bits w 20 5) (bits w 15 5) (bits w 25 1))
  else if bits w 26 6 = 41#6 then .ok (.vfnmsacVf (bits w 7 5) (bits w 20 5) (bits w 15 5) (bits w 25 1))
  else if bits w 26 6 = 42#6 then .ok (.vfsgnjVf (bits w 7 5) (bits w 20 5) (bits w 15 5) (bits w 25 1))
  else if bits w 26 6 = 43#6 then .ok (.vfsgnjnVf (bits w 7 5) (bits w 20 5) (bits w 15 5) (bits w 25 1))
  else if bits w 26 6 = 44#6 then .ok (.vfcmpVf (bits w 9 3) (bits w 7 2) (bits w 20 5) (bits w 15 5) (bits w 25 1))
  else if bits w 26 6 = 46#6 then .ok (.vfwmaccF16Vf (bits w 7 5) (bits w 20 5) (bits w 15 5) (bits w 25 1))
  else if bits w 26 6 = 47#6 then .ok (.vfwmaccBf16Vf (bits w 7 5) (bits w 20 5) (bits w 15 5) (bits w 25 1))
  else .error .unassigned

/-- custom-0, format KA (R30), bits [14:12] = 4. -/
noncomputable def decodeKa4 (w : Word32) : Except DecodeError Instr :=
  if bits w 25 7 = 13#7 then .ok (.vandMm (bits w 7 5) (bits w 20 5) (bits w 15 5))
  else if bits w 25 7 = 15#7 then .ok (.vorMm (bits w 7 5) (bits w 20 5) (bits w 15 5))
  else if bits w 25 7 = 17#7 then .ok (.vxorMm (bits w 7 5) (bits w 20 5) (bits w 15 5))
  else .error .unassigned

/-- custom-0, format KA (R30), bits [14:12] = 5. -/
noncomputable def decodeKa5 (w : Word32) : Except DecodeError Instr :=
  if bits w 26 6 = 0#6 then .ok (.vaddVs (bits w 7 5) (bits w 20 5) (bits w 15 5) (bits w 25 1))
  else if bits w 26 6 = 2#6 then .ok (.vminuVs (bits w 7 5) (bits w 20 5) (bits w 15 5) (bits w 25 1))
  else if bits w 26 6 = 3#6 then .ok (.vminVs (bits w 7 5) (bits w 20 5) (bits w 15 5) (bits w 25 1))
  else if bits w 26 6 = 4#6 then .ok (.vmaxuVs (bits w 7 5) (bits w 20 5) (bits w 15 5) (bits w 25 1))
  else if bits w 26 6 = 5#6 then .ok (.vmaxVs (bits w 7 5) (bits w 20 5) (bits w 15 5) (bits w 25 1))
  else if bits w 26 6 = 6#6 then .ok (.vandVs (bits w 7 5) (bits w 20 5) (bits w 15 5) (bits w 25 1))
  else if bits w 26 6 = 7#6 then .ok (.vorVs (bits w 7 5) (bits w 20 5) (bits w 15 5) (bits w 25 1))
  else if bits w 26 6 = 8#6 then .ok (.vxorVs (bits w 7 5) (bits w 20 5) (bits w 15 5) (bits w 25 1))
  else if bits w 26 6 = 32#6 then .ok (.vftsumVs (bits w 7 5) (bits w 20 5) (bits w 15 5) (bits w 25 1))
  else if bits w 26 6 = 33#6 then .ok (.vfosumVs (bits w 7 5) (bits w 20 5) (bits w 15 5) (bits w 25 1))
  else if bits w 26 6 = 36#6 then .ok (.vfminVs (bits w 7 5) (bits w 20 5) (bits w 15 5) (bits w 25 1))
  else if bits w 26 6 = 37#6 then .ok (.vfmaxVs (bits w 7 5) (bits w 20 5) (bits w 15 5) (bits w 25 1))
  else .error .unassigned

/-- custom-0, format KA (R30), bits [14:12] = 6. -/
noncomputable def decodeKa6 (w : Word32) : Except DecodeError Instr :=
  if bits w 26 6 = 10#6 then .ok (.vnclipuWv (bits w 7 5) (bits w 20 5) (bits w 15 5) (bits w 25 1))
  else if bits w 26 6 = 11#6 then .ok (.vnclipWv (bits w 7 5) (bits w 20 5) (bits w 15 5) (bits w 25 1))
  else if bits w 26 6 = 25#6 then .ok (.vwadduWv (bits w 7 5) (bits w 20 5) (bits w 15 5) (bits w 25 1))
  else if bits w 26 6 = 26#6 then .ok (.vwaddWv (bits w 7 5) (bits w 20 5) (bits w 15 5) (bits w 25 1))
  else .error .unassigned

/-- custom-0, format KA (R30), bits [14:12] = 7. -/
noncomputable def decodeKa7 (w : Word32) : Except DecodeError Instr :=
  if bits w 26 6 = 29#6 ∧ bits w 15 5 = 0#5 then .ok (.vmpopc (bits w 7 5) (bits w 20 5) (bits w 25 1))
  else if bits w 26 6 = 29#6 ∧ bits w 15 5 = 1#5 then .ok (.vmfirst (bits w 7 5) (bits w 20 5) (bits w 25 1))
  else if bits w 26 6 = 29#6 ∧ bits w 15 5 = 2#5 then .ok (.vmprefix (bits w 7 5) (bits w 20 5) (bits w 25 1))
  else if bits w 26 6 = 29#6 ∧ bits w 15 5 = 3#5 then .ok (.viota (bits w 7 5) (bits w 20 5) (bits w 25 1))
  else if bits w 26 6 = 29#6 ∧ bits w 15 10 = 4#10 then .ok (.vid (bits w 7 5) (bits w 25 1))
  else if bits w 25 7 = 59#7 ∧ bits w 15 5 = 5#5 then .ok (.vmnot (bits w 7 5) (bits w 20 5))
  else if bits w 25 7 = 60#7 ∧ bits w 15 5 = 0#5 then .ok (.vcompress (bits w 7 5) (bits w 20 5))
  else if bits w 25 7 = 60#7 ∧ bits w 15 5 = 1#5 then .ok (.vexpand (bits w 7 5) (bits w 20 5))
  else if bits w 25 7 = 61#7 ∧ bits w 15 5 = 2#5 then .ok (.vmvXS (bits w 7 5) (bits w 20 5))
  else if bits w 26 6 = 45#6 ∧ bits w 15 5 = 0#5 then .ok (.vfsqrt (bits w 7 5) (bits w 20 5) (bits w 25 1))
  else if bits w 26 6 = 45#6 ∧ bits w 15 5 = 1#5 then .ok (.vfclass (bits w 7 5) (bits w 20 5) (bits w 25 1))
  else if bits w 26 6 = 45#6 ∧ bits w 15 5 = 2#5 then .ok (.vfexp2 (bits w 7 5) (bits w 20 5) (bits w 25 1))
  else if bits w 26 6 = 45#6 ∧ bits w 15 5 = 3#5 then .ok (.vfrcp (bits w 7 5) (bits w 20 5) (bits w 25 1))
  else if bits w 26 6 = 45#6 ∧ bits w 15 5 = 4#5 then .ok (.vflog2 (bits w 7 5) (bits w 20 5) (bits w 25 1))
  else if bits w 28 4 = 12#4 then .ok (.vfcvt (bits w 7 5) (bits w 20 5) (bits w 15 5) (bits w 26 2) (bits w 25 1))
  else if bits w 25 7 = 105#7 ∧ bits w 17 3 = 0#3 then .ok (.vbq (bits w 7 5) (bits w 20 5) (bits w 16 1) (bits w 15 1))
  else if bits w 26 6 = 52#6 ∧ bits w 16 4 = 2#4 then .ok (.vbdq (bits w 7 5) (bits w 20 5) (bits w 15 1) (bits w 25 1))
  else if bits w 26 6 = 52#6 ∧ bits w 16 4 = 3#4 then .ok (.vfredbs (bits w 7 5) (bits w 20 5) (bits w 15 1) (bits w 25 1))
  else if bits w 25 7 = 105#7 ∧ bits w 15 5 = 8#5 ∧ bits w 7 5 = 0#5 then .ok (.vscl (bits w 20 5))
  else .error .unassigned

/-- custom-0, format KA (R30), read by bits [14:12]. -/
noncomputable def decodeKa (w : Word32) : Except DecodeError Instr :=
  if bits w 12 3 = 0#3 then decodeKa0 w
  else if bits w 12 3 = 1#3 then decodeKa1 w
  else if bits w 12 3 = 2#3 then decodeKa2 w
  else if bits w 12 3 = 3#3 then decodeKa3 w
  else if bits w 12 3 = 4#3 then decodeKa4 w
  else if bits w 12 3 = 5#3 then decodeKa5 w
  else if bits w 12 3 = 6#3 then decodeKa6 w
  else if bits w 12 3 = 7#3 then decodeKa7 w
  else .error .unassigned

/-- MISC-MEM. -/
noncomputable def decodeMiscMem (w : Word32) : Except DecodeError Instr :=
  if bits w 12 3 = 0#3 then .ok (.fence (bits w 28 4) (bits w 24 4) (bits w 20 4) (bits w 15 5) (bits w 7 5))
  else if bits w 12 3 = 1#3 then .ok (.fenceI (bits w 7 5) (bits w 15 5) (bits w 20 12))
  else .error .unassigned

/-- OP-IMM. -/
noncomputable def decodeOpImm (w : Word32) : Except DecodeError Instr :=
  if bits w 12 3 = 0#3 then .ok (.addi (bits w 7 5) (bits w 15 5) (bits w 20 12))
  else if bits w 12 3 = 2#3 then .ok (.slti (bits w 7 5) (bits w 15 5) (bits w 20 12))
  else if bits w 12 3 = 3#3 then .ok (.sltiu (bits w 7 5) (bits w 15 5) (bits w 20 12))
  else if bits w 12 3 = 4#3 then .ok (.xori (bits w 7 5) (bits w 15 5) (bits w 20 12))
  else if bits w 12 3 = 6#3 then .ok (.ori (bits w 7 5) (bits w 15 5) (bits w 20 12))
  else if bits w 12 3 = 7#3 then .ok (.andi (bits w 7 5) (bits w 15 5) (bits w 20 12))
  else if bits w 26 6 = 0#6 ∧ bits w 12 3 = 1#3 then .ok (.slli (bits w 7 5) (bits w 15 5) (bits w 20 6))
  else if bits w 26 6 = 0#6 ∧ bits w 12 3 = 5#3 then .ok (.srli (bits w 7 5) (bits w 15 5) (bits w 20 6))
  else if bits w 26 6 = 16#6 ∧ bits w 12 3 = 5#3 then .ok (.srai (bits w 7 5) (bits w 15 5) (bits w 20 6))
  else .error .unassigned

/-- AUIPC. -/
noncomputable def decodeAuipc (w : Word32) : Except DecodeError Instr :=
  .ok (.auipc (bits w 7 5) (bits w 12 20))

/-- OP-IMM-32. -/
noncomputable def decodeOpImm32 (w : Word32) : Except DecodeError Instr :=
  if bits w 12 3 = 0#3 then .ok (.addiw (bits w 7 5) (bits w 15 5) (bits w 20 12))
  else if bits w 25 7 = 0#7 ∧ bits w 12 3 = 1#3 then .ok (.slliw (bits w 7 5) (bits w 15 5) (bits w 20 5))
  else if bits w 25 7 = 0#7 ∧ bits w 12 3 = 5#3 then .ok (.srliw (bits w 7 5) (bits w 15 5) (bits w 20 5))
  else if bits w 25 7 = 32#7 ∧ bits w 12 3 = 5#3 then .ok (.sraiw (bits w 7 5) (bits w 15 5) (bits w 20 5))
  else .error .unassigned

/-- STORE. -/
noncomputable def decodeStore (w : Word32) : Except DecodeError Instr :=
  if bits w 12 3 = 0#3 then .ok (.sb (bits w 15 5) (bits w 20 5) (storeImm w))
  else if bits w 12 3 = 1#3 then .ok (.sh (bits w 15 5) (bits w 20 5) (storeImm w))
  else if bits w 12 3 = 2#3 then .ok (.sw (bits w 15 5) (bits w 20 5) (storeImm w))
  else if bits w 12 3 = 3#3 then .ok (.sd (bits w 15 5) (bits w 20 5) (storeImm w))
  else .error .unassigned

/-- STORE-FP. -/
noncomputable def decodeStoreFp (w : Word32) : Except DecodeError Instr :=
  if bits w 12 3 = 2#3 then .ok (.fsw (bits w 15 5) (bits w 20 5) (storeImm w))
  else .error .unassigned

/-- custom-1, format KM (R32). -/
noncomputable def decodeKm (w : Word32) : Except DecodeError Instr :=
  if bits w 29 3 = 0#3 ∧ bits w 20 5 = 0#5 ∧ bits w 14 1 = 0#1 then .ok (.vleE (bits w 28 1) (bits w 26 2) (bits w 7 5) (bits w 15 5) (bits w 12 2) (bits w 25 1))
  else if bits w 29 3 = 1#3 ∧ bits w 20 5 = 0#5 ∧ bits w 14 1 = 0#1 then .ok (.vseE (bits w 28 1) (bits w 26 2) (bits w 7 5) (bits w 15 5) (bits w 12 2) (bits w 25 1))
  else if bits w 29 3 = 2#3 ∧ bits w 14 1 = 0#1 then .ok (.vlseE (bits w 28 1) (bits w 26 2) (bits w 7 5) (bits w 15 5) (bits w 20 5) (bits w 12 2) (bits w 25 1))
  else if bits w 29 3 = 3#3 ∧ bits w 14 1 = 0#1 then .ok (.vsseE (bits w 28 1) (bits w 26 2) (bits w 7 5) (bits w 15 5) (bits w 20 5) (bits w 12 2) (bits w 25 1))
  else if bits w 29 3 = 4#3 ∧ bits w 14 1 = 0#1 then .ok (.vlxeE (bits w 28 1) (bits w 26 2) (bits w 7 5) (bits w 15 5) (bits w 20 5) (bits w 12 2) (bits w 25 1))
  else if bits w 29 3 = 5#3 ∧ bits w 14 1 = 0#1 then .ok (.vsxeE (bits w 28 1) (bits w 26 2) (bits w 7 5) (bits w 15 5) (bits w 20 5) (bits w 12 2) (bits w 25 1))
  else if bits w 29 3 = 6#3 ∧ bits w 20 5 = 0#5 ∧ bits w 14 1 = 0#1 then .ok (.vlt2E (bits w 28 1) (bits w 26 2) (bits w 7 5) (bits w 15 5) (bits w 12 2) (bits w 25 1))
  else if bits w 29 3 = 6#3 ∧ bits w 20 5 = 1#5 ∧ bits w 14 1 = 0#1 then .ok (.vst2E (bits w 28 1) (bits w 26 2) (bits w 7 5) (bits w 15 5) (bits w 12 2) (bits w 25 1))
  else if bits w 29 3 = 0#3 ∧ bits w 20 6 = 32#6 ∧ bits w 12 3 = 4#3 then .ok (.vlr (bits w 28 1) (bits w 26 2) (bits w 7 5) (bits w 15 5))
  else if bits w 29 3 = 1#3 ∧ bits w 20 6 = 32#6 ∧ bits w 12 3 = 4#3 then .ok (.vsr (bits w 28 1) (bits w 26 2) (bits w 7 5) (bits w 15 5))
  else if bits w 29 3 = 7#3 ∧ bits w 20 6 = 32#6 ∧ bits w 12 3 = 3#3 then .ok (.vprefetch (bits w 28 1) (bits w 26 2) (bits w 15 5) (bits w 7 5))
  else if bits w 29 3 = 7#3 ∧ bits w 20 6 = 33#6 ∧ bits w 12 3 = 3#3 then .ok (.vresid (bits w 28 1) (bits w 26 2) (bits w 15 5) (bits w 7 5))
  else if bits w 29 3 = 7#3 ∧ bits w 20 6 = 34#6 ∧ bits w 12 3 = 3#3 then .ok (.mdiscard (bits w 28 1) (bits w 26 2) (bits w 15 5) (bits w 7 5))
  else if bits w 29 3 = 7#3 ∧ bits w 20 6 = 35#6 ∧ bits w 12 3 = 3#3 then .ok (.cclean (bits w 28 1) (bits w 26 2) (bits w 15 5) (bits w 7 5))
  else if bits w 29 3 = 7#3 ∧ bits w 20 6 = 36#6 ∧ bits w 12 3 = 3#3 then .ok (.cinval (bits w 28 1) (bits w 26 2) (bits w 15 5) (bits w 7 5))
  else if bits w 29 3 = 7#3 ∧ bits w 20 6 = 37#6 ∧ bits w 12 3 = 3#3 then .ok (.tlbinv (bits w 28 1) (bits w 26 2) (bits w 15 5) (bits w 7 5))
  else if bits w 29 3 = 7#3 ∧ bits w 20 6 = 38#6 ∧ bits w 12 3 = 3#3 then .ok (.l2conv (bits w 28 1) (bits w 26 2) (bits w 7 5) (bits w 15 5))
  else if bits w 29 3 = 7#3 ∧ bits w 20 6 = 39#6 ∧ bits w 12 3 = 3#3 then .ok (.l2rest (bits w 28 1) (bits w 26 2) (bits w 7 5) (bits w 15 5))
  else if bits w 26 6 = 63#6 ∧ bits w 12 3 = 0#3 then .ok (.vredmem (bits w 20 5) (bits w 7 5) (bits w 15 5) (bits w 25 1))
  else if bits w 29 3 = 7#3 ∧ bits w 12 3 = 0#3 then .ok (.vamo (bits w 26 3) (bits w 7 5) (bits w 15 5) (bits w 20 5) (bits w 25 1))
  else if bits w 26 6 = 56#6 ∧ bits w 12 3 = 1#3 then .ok (.vglk (bits w 7 5) (bits w 15 5) (bits w 20 5) (bits w 25 1))
  else if bits w 28 4 = 15#4 ∧ bits w 12 3 = 1#3 then .ok (.vscc (bits w 26 2) (bits w 7 5) (bits w 15 5) (bits w 20 5) (bits w 25 1))
  else if bits w 24 8 = 226#8 ∧ bits w 19 1 = 0#1 ∧ bits w 10 5 = 8#5 then .ok (.kfence (bits w 20 4) (bits w 15 4) (bits w 7 3))
  else if bits w 20 12 = 3680#12 ∧ bits w 12 3 = 2#3 then .ok (.vfencebar (bits w 7 5) (bits w 15 5))
  else if bits w 25 7 = 117#7 ∧ bits w 12 3 = 2#3 then .ok (.barinit (bits w 7 5) (bits w 15 5) (bits w 20 5))
  else if bits w 25 7 = 119#7 ∧ bits w 12 3 = 2#3 then .ok (.barwait (bits w 7 5) (bits w 15 5) (bits w 20 5))
  else if bits w 11 21 = 1982468#21 then .ok (.qdrain (bits w 7 4))
  else .error .unassigned

/-- AMO, bits [14:12] = 2. -/
noncomputable def decodeAmo2 (w : Word32) : Except DecodeError Instr :=
  if bits w 27 5 = 0#5 then .ok (.amoaddW (bits w 7 5) (bits w 15 5) (bits w 20 5) (bits w 26 1) (bits w 25 1))
  else if bits w 27 5 = 1#5 then .ok (.amoswapW (bits w 7 5) (bits w 15 5) (bits w 20 5) (bits w 26 1) (bits w 25 1))
  else if bits w 27 5 = 2#5 ∧ bits w 20 5 = 0#5 then .ok (.lrW (bits w 7 5) (bits w 15 5) (bits w 26 1) (bits w 25 1))
  else if bits w 27 5 = 3#5 then .ok (.scW (bits w 7 5) (bits w 15 5) (bits w 20 5) (bits w 26 1) (bits w 25 1))
  else if bits w 27 5 = 4#5 then .ok (.amoxorW (bits w 7 5) (bits w 15 5) (bits w 20 5) (bits w 26 1) (bits w 25 1))
  else if bits w 27 5 = 8#5 then .ok (.amoorW (bits w 7 5) (bits w 15 5) (bits w 20 5) (bits w 26 1) (bits w 25 1))
  else if bits w 27 5 = 12#5 then .ok (.amoandW (bits w 7 5) (bits w 15 5) (bits w 20 5) (bits w 26 1) (bits w 25 1))
  else if bits w 27 5 = 16#5 then .ok (.amominW (bits w 7 5) (bits w 15 5) (bits w 20 5) (bits w 26 1) (bits w 25 1))
  else if bits w 27 5 = 20#5 then .ok (.amomaxW (bits w 7 5) (bits w 15 5) (bits w 20 5) (bits w 26 1) (bits w 25 1))
  else if bits w 27 5 = 24#5 then .ok (.amominuW (bits w 7 5) (bits w 15 5) (bits w 20 5) (bits w 26 1) (bits w 25 1))
  else if bits w 27 5 = 28#5 then .ok (.amomaxuW (bits w 7 5) (bits w 15 5) (bits w 20 5) (bits w 26 1) (bits w 25 1))
  else .error .unassigned

/-- AMO, bits [14:12] = 3. -/
noncomputable def decodeAmo3 (w : Word32) : Except DecodeError Instr :=
  if bits w 27 5 = 0#5 then .ok (.amoaddD (bits w 7 5) (bits w 15 5) (bits w 20 5) (bits w 26 1) (bits w 25 1))
  else if bits w 27 5 = 1#5 then .ok (.amoswapD (bits w 7 5) (bits w 15 5) (bits w 20 5) (bits w 26 1) (bits w 25 1))
  else if bits w 27 5 = 2#5 ∧ bits w 20 5 = 0#5 then .ok (.lrD (bits w 7 5) (bits w 15 5) (bits w 26 1) (bits w 25 1))
  else if bits w 27 5 = 3#5 then .ok (.scD (bits w 7 5) (bits w 15 5) (bits w 20 5) (bits w 26 1) (bits w 25 1))
  else if bits w 27 5 = 4#5 then .ok (.amoxorD (bits w 7 5) (bits w 15 5) (bits w 20 5) (bits w 26 1) (bits w 25 1))
  else if bits w 27 5 = 8#5 then .ok (.amoorD (bits w 7 5) (bits w 15 5) (bits w 20 5) (bits w 26 1) (bits w 25 1))
  else if bits w 27 5 = 12#5 then .ok (.amoandD (bits w 7 5) (bits w 15 5) (bits w 20 5) (bits w 26 1) (bits w 25 1))
  else if bits w 27 5 = 16#5 then .ok (.amominD (bits w 7 5) (bits w 15 5) (bits w 20 5) (bits w 26 1) (bits w 25 1))
  else if bits w 27 5 = 20#5 then .ok (.amomaxD (bits w 7 5) (bits w 15 5) (bits w 20 5) (bits w 26 1) (bits w 25 1))
  else if bits w 27 5 = 24#5 then .ok (.amominuD (bits w 7 5) (bits w 15 5) (bits w 20 5) (bits w 26 1) (bits w 25 1))
  else if bits w 27 5 = 28#5 then .ok (.amomaxuD (bits w 7 5) (bits w 15 5) (bits w 20 5) (bits w 26 1) (bits w 25 1))
  else .error .unassigned

/-- AMO, read by bits [14:12]. -/
noncomputable def decodeAmo (w : Word32) : Except DecodeError Instr :=
  if bits w 12 3 = 2#3 then decodeAmo2 w
  else if bits w 12 3 = 3#3 then decodeAmo3 w
  else .error .unassigned

/-- OP, bits [14:12] = 0. -/
noncomputable def decodeOp0 (w : Word32) : Except DecodeError Instr :=
  if bits w 25 7 = 0#7 then .ok (.add (bits w 7 5) (bits w 15 5) (bits w 20 5))
  else if bits w 25 7 = 32#7 then .ok (.sub (bits w 7 5) (bits w 15 5) (bits w 20 5))
  else if bits w 25 7 = 1#7 then .ok (.mul (bits w 7 5) (bits w 15 5) (bits w 20 5))
  else .error .unassigned

/-- OP, bits [14:12] = 1. -/
noncomputable def decodeOp1 (w : Word32) : Except DecodeError Instr :=
  if bits w 25 7 = 0#7 then .ok (.sll (bits w 7 5) (bits w 15 5) (bits w 20 5))
  else if bits w 25 7 = 1#7 then .ok (.mulh (bits w 7 5) (bits w 15 5) (bits w 20 5))
  else .error .unassigned

/-- OP, bits [14:12] = 2. -/
noncomputable def decodeOp2 (w : Word32) : Except DecodeError Instr :=
  if bits w 25 7 = 0#7 then .ok (.slt (bits w 7 5) (bits w 15 5) (bits w 20 5))
  else if bits w 25 7 = 1#7 then .ok (.mulhsu (bits w 7 5) (bits w 15 5) (bits w 20 5))
  else .error .unassigned

/-- OP, bits [14:12] = 3. -/
noncomputable def decodeOp3 (w : Word32) : Except DecodeError Instr :=
  if bits w 25 7 = 0#7 then .ok (.sltu (bits w 7 5) (bits w 15 5) (bits w 20 5))
  else if bits w 25 7 = 1#7 then .ok (.mulhu (bits w 7 5) (bits w 15 5) (bits w 20 5))
  else .error .unassigned

/-- OP, bits [14:12] = 4. -/
noncomputable def decodeOp4 (w : Word32) : Except DecodeError Instr :=
  if bits w 25 7 = 0#7 then .ok (.xor (bits w 7 5) (bits w 15 5) (bits w 20 5))
  else if bits w 25 7 = 1#7 then .ok (.div (bits w 7 5) (bits w 15 5) (bits w 20 5))
  else .error .unassigned

/-- OP, bits [14:12] = 5. -/
noncomputable def decodeOp5 (w : Word32) : Except DecodeError Instr :=
  if bits w 25 7 = 0#7 then .ok (.srl (bits w 7 5) (bits w 15 5) (bits w 20 5))
  else if bits w 25 7 = 32#7 then .ok (.sra (bits w 7 5) (bits w 15 5) (bits w 20 5))
  else if bits w 25 7 = 1#7 then .ok (.divu (bits w 7 5) (bits w 15 5) (bits w 20 5))
  else .error .unassigned

/-- OP, bits [14:12] = 6. -/
noncomputable def decodeOp6 (w : Word32) : Except DecodeError Instr :=
  if bits w 25 7 = 0#7 then .ok (.or (bits w 7 5) (bits w 15 5) (bits w 20 5))
  else if bits w 25 7 = 1#7 then .ok (.rem (bits w 7 5) (bits w 15 5) (bits w 20 5))
  else .error .unassigned

/-- OP, bits [14:12] = 7. -/
noncomputable def decodeOp7 (w : Word32) : Except DecodeError Instr :=
  if bits w 25 7 = 0#7 then .ok (.and (bits w 7 5) (bits w 15 5) (bits w 20 5))
  else if bits w 25 7 = 1#7 then .ok (.remu (bits w 7 5) (bits w 15 5) (bits w 20 5))
  else .error .unassigned

/-- OP, read by bits [14:12]. -/
noncomputable def decodeOp (w : Word32) : Except DecodeError Instr :=
  if bits w 12 3 = 0#3 then decodeOp0 w
  else if bits w 12 3 = 1#3 then decodeOp1 w
  else if bits w 12 3 = 2#3 then decodeOp2 w
  else if bits w 12 3 = 3#3 then decodeOp3 w
  else if bits w 12 3 = 4#3 then decodeOp4 w
  else if bits w 12 3 = 5#3 then decodeOp5 w
  else if bits w 12 3 = 6#3 then decodeOp6 w
  else if bits w 12 3 = 7#3 then decodeOp7 w
  else .error .unassigned

/-- LUI. -/
noncomputable def decodeLui (w : Word32) : Except DecodeError Instr :=
  .ok (.lui (bits w 7 5) (bits w 12 20))

/-- OP-32. -/
noncomputable def decodeOp32 (w : Word32) : Except DecodeError Instr :=
  if bits w 25 7 = 0#7 ∧ bits w 12 3 = 0#3 then .ok (.addw (bits w 7 5) (bits w 15 5) (bits w 20 5))
  else if bits w 25 7 = 0#7 ∧ bits w 12 3 = 1#3 then .ok (.sllw (bits w 7 5) (bits w 15 5) (bits w 20 5))
  else if bits w 25 7 = 0#7 ∧ bits w 12 3 = 5#3 then .ok (.srlw (bits w 7 5) (bits w 15 5) (bits w 20 5))
  else if bits w 25 7 = 32#7 ∧ bits w 12 3 = 0#3 then .ok (.subw (bits w 7 5) (bits w 15 5) (bits w 20 5))
  else if bits w 25 7 = 32#7 ∧ bits w 12 3 = 5#3 then .ok (.sraw (bits w 7 5) (bits w 15 5) (bits w 20 5))
  else if bits w 25 7 = 1#7 ∧ bits w 12 3 = 0#3 then .ok (.mulw (bits w 7 5) (bits w 15 5) (bits w 20 5))
  else if bits w 25 7 = 1#7 ∧ bits w 12 3 = 4#3 then .ok (.divw (bits w 7 5) (bits w 15 5) (bits w 20 5))
  else if bits w 25 7 = 1#7 ∧ bits w 12 3 = 5#3 then .ok (.divuw (bits w 7 5) (bits w 15 5) (bits w 20 5))
  else if bits w 25 7 = 1#7 ∧ bits w 12 3 = 6#3 then .ok (.remw (bits w 7 5) (bits w 15 5) (bits w 20 5))
  else if bits w 25 7 = 1#7 ∧ bits w 12 3 = 7#3 then .ok (.remuw (bits w 7 5) (bits w 15 5) (bits w 20 5))
  else .error .unassigned

/-- MADD. -/
noncomputable def decodeMadd (w : Word32) : Except DecodeError Instr :=
  if bits w 25 2 = 0#2 then .ok (.fmaddS (bits w 7 5) (bits w 15 5) (bits w 20 5) (bits w 27 5) (bits w 12 3))
  else .error .unassigned

/-- MSUB. -/
noncomputable def decodeMsub (w : Word32) : Except DecodeError Instr :=
  if bits w 25 2 = 0#2 then .ok (.fmsubS (bits w 7 5) (bits w 15 5) (bits w 20 5) (bits w 27 5) (bits w 12 3))
  else .error .unassigned

/-- NMSUB. -/
noncomputable def decodeNmsub (w : Word32) : Except DecodeError Instr :=
  if bits w 25 2 = 0#2 then .ok (.fnmsubS (bits w 7 5) (bits w 15 5) (bits w 20 5) (bits w 27 5) (bits w 12 3))
  else .error .unassigned

/-- NMADD. -/
noncomputable def decodeNmadd (w : Word32) : Except DecodeError Instr :=
  if bits w 25 2 = 0#2 then .ok (.fnmaddS (bits w 7 5) (bits w 15 5) (bits w 20 5) (bits w 27 5) (bits w 12 3))
  else .error .unassigned

/-- OP-FP. -/
noncomputable def decodeOpFp (w : Word32) : Except DecodeError Instr :=
  if bits w 25 7 = 0#7 then .ok (.faddS (bits w 7 5) (bits w 15 5) (bits w 20 5) (bits w 12 3))
  else if bits w 25 7 = 4#7 then .ok (.fsubS (bits w 7 5) (bits w 15 5) (bits w 20 5) (bits w 12 3))
  else if bits w 25 7 = 8#7 then .ok (.fmulS (bits w 7 5) (bits w 15 5) (bits w 20 5) (bits w 12 3))
  else if bits w 25 7 = 12#7 then .ok (.fdivS (bits w 7 5) (bits w 15 5) (bits w 20 5) (bits w 12 3))
  else if bits w 20 12 = 1408#12 then .ok (.fsqrtS (bits w 7 5) (bits w 15 5) (bits w 12 3))
  else if bits w 25 7 = 16#7 ∧ bits w 12 3 = 0#3 then .ok (.fsgnjS (bits w 7 5) (bits w 15 5) (bits w 20 5))
  else if bits w 25 7 = 16#7 ∧ bits w 12 3 = 1#3 then .ok (.fsgnjnS (bits w 7 5) (bits w 15 5) (bits w 20 5))
  else if bits w 25 7 = 16#7 ∧ bits w 12 3 = 2#3 then .ok (.fsgnjxS (bits w 7 5) (bits w 15 5) (bits w 20 5))
  else if bits w 25 7 = 20#7 ∧ bits w 12 3 = 0#3 then .ok (.fminS (bits w 7 5) (bits w 15 5) (bits w 20 5))
  else if bits w 25 7 = 20#7 ∧ bits w 12 3 = 1#3 then .ok (.fmaxS (bits w 7 5) (bits w 15 5) (bits w 20 5))
  else if bits w 25 7 = 80#7 ∧ bits w 12 3 = 0#3 then .ok (.fleS (bits w 7 5) (bits w 15 5) (bits w 20 5))
  else if bits w 25 7 = 80#7 ∧ bits w 12 3 = 1#3 then .ok (.fltS (bits w 7 5) (bits w 15 5) (bits w 20 5))
  else if bits w 25 7 = 80#7 ∧ bits w 12 3 = 2#3 then .ok (.feqS (bits w 7 5) (bits w 15 5) (bits w 20 5))
  else if bits w 20 12 = 3072#12 then .ok (.fcvtWS (bits w 7 5) (bits w 15 5) (bits w 12 3))
  else if bits w 20 12 = 3073#12 then .ok (.fcvtWuS (bits w 7 5) (bits w 15 5) (bits w 12 3))
  else if bits w 20 12 = 3074#12 then .ok (.fcvtLS (bits w 7 5) (bits w 15 5) (bits w 12 3))
  else if bits w 20 12 = 3075#12 then .ok (.fcvtLuS (bits w 7 5) (bits w 15 5) (bits w 12 3))
  else if bits w 20 12 = 3328#12 then .ok (.fcvtSW (bits w 7 5) (bits w 15 5) (bits w 12 3))
  else if bits w 20 12 = 3329#12 then .ok (.fcvtSWu (bits w 7 5) (bits w 15 5) (bits w 12 3))
  else if bits w 20 12 = 3330#12 then .ok (.fcvtSL (bits w 7 5) (bits w 15 5) (bits w 12 3))
  else if bits w 20 12 = 3331#12 then .ok (.fcvtSLu (bits w 7 5) (bits w 15 5) (bits w 12 3))
  else if bits w 20 12 = 3584#12 ∧ bits w 12 3 = 0#3 then .ok (.fmvXW (bits w 7 5) (bits w 15 5))
  else if bits w 20 12 = 3584#12 ∧ bits w 12 3 = 1#3 then .ok (.fclassS (bits w 7 5) (bits w 15 5))
  else if bits w 20 12 = 3840#12 ∧ bits w 12 3 = 0#3 then .ok (.fmvWX (bits w 7 5) (bits w 15 5))
  else .error .unassigned

/-- custom-2, format KX (R36), bits [14:12] = 0. -/
noncomputable def decodeKx0 (w : Word32) : Except DecodeError Instr :=
  if bits w 15 17 = 0#17 then .ok (.lmode (bits w 7 5))
  else if bits w 15 17 = 4096#17 then .ok (.mclaim (bits w 7 5))
  else if bits w 15 17 = 5120#17 then .ok (.mclaimRx (bits w 7 5))
  else if bits w 15 17 = 8192#17 then .ok (.mrelease (bits w 7 5))
  else if bits w 15 17 = 12288#17 then .ok (.mtzero (bits w 7 5))
  else if bits w 15 17 = 16384#17 then .ok (.mtdrain (bits w 7 5))
  else if bits w 27 5 = 5#5 then .ok (.mchainTacc0 (bits w 25 2) (bits w 7 5) (bits w 15 5) (bits w 20 5))
  else if bits w 27 5 = 6#5 then .ok (.mchainTacc1 (bits w 25 2) (bits w 7 5) (bits w 15 5) (bits w 20 5))
  else .error .unassigned

/-- custom-2, format KX (R36), bits [14:12] = 1. -/
noncomputable def decodeKx1 (w : Word32) : Except DecodeError Instr :=
  if bits w 20 12 = 0#12 then .ok (.mslotld (bits w 7 5) (bits w 15 5))
  else if bits w 27 5 = 1#5 ∧ bits w 15 10 = 0#10 then .ok (.mwloadGroup0 (bits w 25 2) (bits w 7 5))
  else if bits w 27 5 = 2#5 ∧ bits w 15 10 = 0#10 then .ok (.mwloadGroup1 (bits w 25 2) (bits w 7 5))
  else if bits w 25 7 = 12#7 then .ok (.mtmv (bits w 7 5) (bits w 20 5) (bits w 15 5))
  else if bits w 25 7 = 16#7 then .ok (.mtmvc (bits w 7 5) (bits w 20 5) (bits w 15 5))
  else if bits w 25 7 = 20#7 then .ok (.mvtm (bits w 7 5) (bits w 20 5) (bits w 15 5))
  else if bits w 25 7 = 24#7 then .ok (.mvtmc (bits w 7 5) (bits w 20 5) (bits w 15 5))
  else .error .unassigned

/-- custom-2, format KX (R36), bits [14:12] = 2. -/
noncomputable def decodeKx2 (w : Word32) : Except DecodeError Instr :=
  if bits w 28 4 = 0#4 then .ok (.mopa (bits w 27 1) (bits w 25 2) (bits w 7 5) (bits w 15 5) (bits w 20 5))
  else if bits w 28 4 = 2#4 then .ok (.mopak (bits w 27 1) (bits w 25 2) (bits w 7 5) (bits w 15 5) (bits w 20 5))
  else if bits w 28 4 = 4#4 ∧ bits w 20 5 = 0#5 then .ok (.mws (bits w 27 1) (bits w 25 2) (bits w 7 5) (bits w 15 5))
  else .error .unassigned

/-- custom-2, format KX (R36), bits [14:12] = 4. -/
noncomputable def decodeKx4 (w : Word32) : Except DecodeError Instr :=
  if bits w 25 7 = 0#7 then .ok (.mtbcast (bits w 7 5) (bits w 15 5) (bits w 20 5))
  else if bits w 20 12 = 128#12 then .ok (.mtwait (bits w 7 5) (bits w 15 5))
  else if bits w 20 12 = 256#12 then .ok (.mtqrd (bits w 7 5) (bits w 15 5))
  else if bits w 25 7 = 12#7 ∧ bits w 7 5 = 0#5 then .ok (.mtqwr (bits w 15 5) (bits w 20 5))
  else if bits w 20 12 = 512#12 then .ok (.mtresume (bits w 7 5) (bits w 15 5))
  else if bits w 20 12 = 544#12 then .ok (.mtresumeSkip (bits w 7 5) (bits w 15 5))
  else if bits w 20 12 = 640#12 then .ok (.mtkill (bits w 7 5) (bits w 15 5))
  else if bits w 27 5 = 6#5 ∧ bits w 20 5 = 0#5 then .ok (.mtfault (bits w 25 2) (bits w 7 5) (bits w 15 5))
  else .error .unassigned

/-- custom-2, format KX (R36), bits [14:12] = 5. -/
noncomputable def decodeKx5 (w : Word32) : Except DecodeError Instr :=
  if bits w 20 12 = 0#12 ∧ bits w 7 5 = 0#5 then .ok (.mtfetch (bits w 15 5))
  else if bits w 25 7 = 1#7 ∧ bits w 7 5 = 0#5 then .ok (.mtfetchNz (bits w 15 5) (bits w 20 5))
  else if bits w 25 7 = 2#7 ∧ bits w 7 5 = 0#5 then .ok (.mtfetchZ (bits w 15 5) (bits w 20 5))
  else if bits w 15 17 = 4096#17 ∧ bits w 7 5 = 0#5 then .ok (.mtstop)
  else if bits w 27 5 = 2#5 ∧ bits w 20 5 = 0#5 ∧ bits w 7 5 = 0#5 then .ok (.mtsend (bits w 26 1) (bits w 25 1) (bits w 15 5))
  else if bits w 27 5 = 3#5 ∧ bits w 15 10 = 0#10 then .ok (.mtrecv (bits w 26 1) (bits w 25 1) (bits w 7 5))
  else if bits w 27 5 = 4#5 ∧ bits w 15 10 = 0#10 then .ok (.mtid (bits w 25 2) (bits w 7 5))
  else .error .unassigned

/-- custom-2, format KX (R36), read by bits [14:12]. -/
noncomputable def decodeKx (w : Word32) : Except DecodeError Instr :=
  if bits w 12 3 = 0#3 then decodeKx0 w
  else if bits w 12 3 = 1#3 then decodeKx1 w
  else if bits w 12 3 = 2#3 then decodeKx2 w
  else if bits w 12 3 = 4#3 then decodeKx4 w
  else if bits w 12 3 = 5#3 then decodeKx5 w
  else .error .unassigned

/-- BRANCH. -/
noncomputable def decodeBranch (w : Word32) : Except DecodeError Instr :=
  if bits w 12 3 = 0#3 then .ok (.beq (bits w 15 5) (bits w 20 5) (branchOff w))
  else if bits w 12 3 = 1#3 then .ok (.bne (bits w 15 5) (bits w 20 5) (branchOff w))
  else if bits w 12 3 = 4#3 then .ok (.blt (bits w 15 5) (bits w 20 5) (branchOff w))
  else if bits w 12 3 = 5#3 then .ok (.bge (bits w 15 5) (bits w 20 5) (branchOff w))
  else if bits w 12 3 = 6#3 then .ok (.bltu (bits w 15 5) (bits w 20 5) (branchOff w))
  else if bits w 12 3 = 7#3 then .ok (.bgeu (bits w 15 5) (bits w 20 5) (branchOff w))
  else .error .unassigned

/-- JALR. -/
noncomputable def decodeJalr (w : Word32) : Except DecodeError Instr :=
  if bits w 12 3 = 0#3 then .ok (.jalr (bits w 7 5) (bits w 15 5) (bits w 20 12))
  else .error .unassigned

/-- JAL. -/
noncomputable def decodeJal (w : Word32) : Except DecodeError Instr :=
  .ok (.jal (bits w 7 5) (jalOff w))

/-- SYSTEM. -/
noncomputable def decodeSystem (w : Word32) : Except DecodeError Instr :=
  if bits w 7 25 = 0#25 then .ok (.ecall)
  else if bits w 7 25 = 8192#25 then .ok (.ebreak)
  else if bits w 7 25 = 2113536#25 then .ok (.sret)
  else if bits w 7 25 = 6307840#25 then .ok (.mret)
  else if bits w 7 25 = 2138112#25 then .ok (.wfi)
  else if bits w 25 7 = 9#7 ∧ bits w 7 8 = 0#8 then .ok (.sfenceVma (bits w 15 5) (bits w 20 5))
  else if bits w 12 3 = 1#3 then .ok (.csrrw (bits w 7 5) (bits w 15 5) (bits w 20 12))
  else if bits w 12 3 = 2#3 then .ok (.csrrs (bits w 7 5) (bits w 15 5) (bits w 20 12))
  else if bits w 12 3 = 3#3 then .ok (.csrrc (bits w 7 5) (bits w 15 5) (bits w 20 12))
  else if bits w 12 3 = 5#3 then .ok (.csrrwi (bits w 7 5) (bits w 15 5) (bits w 20 12))
  else if bits w 12 3 = 6#3 then .ok (.csrrsi (bits w 7 5) (bits w 15 5) (bits w 20 12))
  else if bits w 12 3 = 7#3 then .ok (.csrrci (bits w 7 5) (bits w 15 5) (bits w 20 12))
  else .error .unassigned

/-- custom-3, format KS (R37), bits [14:12] = 0. -/
noncomputable def decodeKs0 (w : Word32) : Except DecodeError Instr :=
  if bits w 20 12 = 0#12 then .ok (.cspawn (bits w 7 5) (bits w 15 5))
  else if bits w 20 12 = 32#12 then .ok (.cjoin (bits w 7 5) (bits w 15 5))
  else if bits w 15 17 = 2048#17 then .ok (.stclaim (bits w 7 5))
  else if bits w 15 17 = 3072#17 ∧ bits w 7 5 = 0#5 then .ok (.cfinish)
  else if bits w 15 17 = 4096#17 then .ok (.cyield (bits w 7 5))
  else if bits w 25 7 = 5#7 then .ok (.rgnmake (bits w 7 5) (bits w 15 5) (bits w 20 5))
  else if bits w 25 7 = 6#7 then .ok (.rgnsync (bits w 7 5) (bits w 15 5) (bits w 20 5))
  else if bits w 30 2 = 2#2 ∧ bits w 15 5 = 0#5 then .ok (.cinfo (bits w 7 5) (bits w 20 10))
  else .error .unassigned

/-- custom-3, format KS (R37), bits [14:12] = 1. -/
noncomputable def decodeKs1 (w : Word32) : Except DecodeError Instr :=
  if bits w 25 7 = 0#7 then .ok (.vcfg (bits w 7 5) (bits w 15 5) (bits w 20 5))
  else if bits w 25 7 = 1#7 ∧ bits w 15 5 = 0#5 then .ok (.vregs (bits w 7 5) (bits w 20 5))
  else if bits w 31 1 = 1#1 then .ok (.vcfgi (bits w 7 5) (bits w 15 5) (bits w 20 11))
  else .error .unassigned

/-- custom-3, format KS (R37), bits [14:12] = 2. -/
noncomputable def decodeKs2 (w : Word32) : Except DecodeError Instr :=
  if bits w 25 7 = 0#7 then .ok (.cpissue (bits w 7 5) (bits w 15 5) (bits w 20 5))
  else if bits w 25 7 = 1#7 then .ok (.cpissuePut (bits w 7 5) (bits w 15 5) (bits w 20 5))
  else if bits w 25 7 = 2#7 then .ok (.cpissueGet (bits w 7 5) (bits w 15 5) (bits w 20 5))
  else if bits w 20 12 = 96#12 then .ok (.cpwait (bits w 7 5) (bits w 15 5))
  else if bits w 20 12 = 128#12 then .ok (.sleeptil (bits w 7 5) (bits w 15 5))
  else if bits w 20 12 = 160#12 then .ok (.cpsusp (bits w 7 5) (bits w 15 5))
  else if bits w 20 12 = 192#12 then .ok (.cpresm (bits w 7 5) (bits w 15 5))
  else if bits w 20 12 = 224#12 then .ok (.cpcancel (bits w 7 5) (bits w 15 5))
  else if bits w 30 2 = 2#2 then .ok (.cpstat (bits w 7 5) (bits w 15 5) (bits w 20 10))
  else .error .unassigned

/-- custom-3, format KS (R37), bits [14:12] = 3. -/
noncomputable def decodeKs3 (w : Word32) : Except DecodeError Instr :=
  if bits w 18 14 = 0#14 then .ok (.ctxsave (bits w 7 5) (bits w 15 3))
  else if bits w 15 17 = 1024#17 ∧ bits w 7 5 = 0#5 then .ok (.ctxload)
  else if bits w 25 7 = 2#7 ∧ bits w 7 5 = 0#5 then .ok (.kfail (bits w 15 5) (bits w 20 5))
  else if bits w 25 7 = 3#7 then .ok (.trapset (bits w 7 5) (bits w 15 5) (bits w 20 5))
  else if bits w 15 17 = 4096#17 ∧ bits w 7 5 = 0#5 then .ok (.trapsetRet)
  else .error .unassigned

/-- custom-3, format KS (R37), bits [14:12] = 4. -/
noncomputable def decodeKs4 (w : Word32) : Except DecodeError Instr :=
  if bits w 25 7 = 0#7 then .ok (.pwreq (bits w 7 5) (bits w 15 5) (bits w 20 5))
  else if bits w 20 12 = 32#12 then .ok (.pwpin (bits w 7 5) (bits w 15 5))
  else if bits w 20 12 = 64#12 then .ok (.pwgrant (bits w 7 5) (bits w 15 5))
  else if bits w 25 7 = 3#7 then .ok (.pwslot (bits w 7 5) (bits w 15 5) (bits w 20 5))
  else if bits w 30 2 = 2#2 then .ok (.pwstat (bits w 7 5) (bits w 15 5) (bits w 20 10))
  else .error .unassigned

/-- custom-3, format KS (R37), bits [14:12] = 5. -/
noncomputable def decodeKs5 (w : Word32) : Except DecodeError Instr :=
  if bits w 15 17 = 0#17 then .ok (.kclock (bits w 7 5))
  else if bits w 30 2 = 2#2 ∧ bits w 15 5 = 0#5 then .ok (.kident (bits w 7 5) (bits w 20 10))
  else .error .unassigned

/-- custom-3, format KS (R37), read by bits [14:12]. -/
noncomputable def decodeKs (w : Word32) : Except DecodeError Instr :=
  if bits w 12 3 = 0#3 then decodeKs0 w
  else if bits w 12 3 = 1#3 then decodeKs1 w
  else if bits w 12 3 = 2#3 then decodeKs2 w
  else if bits w 12 3 = 3#3 then decodeKs3 w
  else if bits w 12 3 = 4#3 then decodeKs4 w
  else if bits w 12 3 = 5#3 then decodeKs5 w
  else .error .unassigned

/-- The rows of the opcode table by major opcode (R29). -/
noncomputable def decodeRow (w : Word32) : Except DecodeError Instr :=
  if bits w 0 7 = 0x03#7 then decodeLoad w
  else if bits w 0 7 = 0x07#7 then decodeLoadFp w
  else if bits w 0 7 = 0x0b#7 then decodeKa w
  else if bits w 0 7 = 0x0f#7 then decodeMiscMem w
  else if bits w 0 7 = 0x13#7 then decodeOpImm w
  else if bits w 0 7 = 0x17#7 then decodeAuipc w
  else if bits w 0 7 = 0x1b#7 then decodeOpImm32 w
  else if bits w 0 7 = 0x23#7 then decodeStore w
  else if bits w 0 7 = 0x27#7 then decodeStoreFp w
  else if bits w 0 7 = 0x2b#7 then decodeKm w
  else if bits w 0 7 = 0x2f#7 then decodeAmo w
  else if bits w 0 7 = 0x33#7 then decodeOp w
  else if bits w 0 7 = 0x37#7 then decodeLui w
  else if bits w 0 7 = 0x3b#7 then decodeOp32 w
  else if bits w 0 7 = 0x43#7 then decodeMadd w
  else if bits w 0 7 = 0x47#7 then decodeMsub w
  else if bits w 0 7 = 0x4b#7 then decodeNmsub w
  else if bits w 0 7 = 0x4f#7 then decodeNmadd w
  else if bits w 0 7 = 0x53#7 then decodeOpFp w
  else if bits w 0 7 = 0x5b#7 then decodeKx w
  else if bits w 0 7 = 0x63#7 then decodeBranch w
  else if bits w 0 7 = 0x67#7 then decodeJalr w
  else if bits w 0 7 = 0x6f#7 then decodeJal w
  else if bits w 0 7 = 0x73#7 then decodeSystem w
  else if bits w 0 7 = 0x7b#7 then decodeKs w
  else .error .majorOpcode

/-- Decodes one word (R28, R40): the pool guard, the encoding length, the row, then the values its entry accepts. -/
noncomputable def decode (w : Word32) : Except DecodeError Instr :=
  if w = 0#32 then .error .allZeros
  else if bits w 0 2 ≠ 3#2 then .error .encodingLength
  else match decodeRow w with
    | .error e => .error e
    | .ok i => if i.wellFormed then .ok i else .error .fieldValue

/-- Decodes the bytes at the program counter, little-endian (R28), with the bytes that follow them. -/
noncomputable def decodeBytes : List Byte → Option (Except DecodeError Instr × List Byte)
  | b0 :: b1 :: b2 :: b3 :: rest => some (decode (b3 ++ b2 ++ b1 ++ b0), rest)
  | _ => none

/-- The word of an encoded instruction (R29 to R37 and the encoding rows of each entry); an event row has none. -/
def encode : Instr → Option Word32
  | .lui rd imm =>
    some (imm ++ rd ++ 0x37#7)
  | .auipc rd imm =>
    some (imm ++ rd ++ 0x17#7)
  | .jal rd off =>
    some (bits20 off 19 1 ++ bits20 off 0 10 ++ bits20 off 10 1 ++ bits20 off 11 8 ++ rd ++ 0x6f#7)
  | .jalr rd rs1 imm =>
    some (imm ++ rs1 ++ 0#3 ++ rd ++ 0x67#7)
  | .beq rs1 rs2 off =>
    some (bits12 off 11 1 ++ bits12 off 4 6 ++ rs2 ++ rs1 ++ 0#3 ++ bits12 off 0 4 ++ bits12 off 10 1 ++ 0x63#7)
  | .bne rs1 rs2 off =>
    some (bits12 off 11 1 ++ bits12 off 4 6 ++ rs2 ++ rs1 ++ 1#3 ++ bits12 off 0 4 ++ bits12 off 10 1 ++ 0x63#7)
  | .blt rs1 rs2 off =>
    some (bits12 off 11 1 ++ bits12 off 4 6 ++ rs2 ++ rs1 ++ 4#3 ++ bits12 off 0 4 ++ bits12 off 10 1 ++ 0x63#7)
  | .bge rs1 rs2 off =>
    some (bits12 off 11 1 ++ bits12 off 4 6 ++ rs2 ++ rs1 ++ 5#3 ++ bits12 off 0 4 ++ bits12 off 10 1 ++ 0x63#7)
  | .bltu rs1 rs2 off =>
    some (bits12 off 11 1 ++ bits12 off 4 6 ++ rs2 ++ rs1 ++ 6#3 ++ bits12 off 0 4 ++ bits12 off 10 1 ++ 0x63#7)
  | .bgeu rs1 rs2 off =>
    some (bits12 off 11 1 ++ bits12 off 4 6 ++ rs2 ++ rs1 ++ 7#3 ++ bits12 off 0 4 ++ bits12 off 10 1 ++ 0x63#7)
  | .lb rd rs1 imm =>
    some (imm ++ rs1 ++ 0#3 ++ rd ++ 0x03#7)
  | .lh rd rs1 imm =>
    some (imm ++ rs1 ++ 1#3 ++ rd ++ 0x03#7)
  | .lw rd rs1 imm =>
    some (imm ++ rs1 ++ 2#3 ++ rd ++ 0x03#7)
  | .ld rd rs1 imm =>
    some (imm ++ rs1 ++ 3#3 ++ rd ++ 0x03#7)
  | .lbu rd rs1 imm =>
    some (imm ++ rs1 ++ 4#3 ++ rd ++ 0x03#7)
  | .lhu rd rs1 imm =>
    some (imm ++ rs1 ++ 5#3 ++ rd ++ 0x03#7)
  | .lwu rd rs1 imm =>
    some (imm ++ rs1 ++ 6#3 ++ rd ++ 0x03#7)
  | .sb rs1 rs2 imm =>
    some (bits12 imm 5 7 ++ rs2 ++ rs1 ++ 0#3 ++ bits12 imm 0 5 ++ 0x23#7)
  | .sh rs1 rs2 imm =>
    some (bits12 imm 5 7 ++ rs2 ++ rs1 ++ 1#3 ++ bits12 imm 0 5 ++ 0x23#7)
  | .sw rs1 rs2 imm =>
    some (bits12 imm 5 7 ++ rs2 ++ rs1 ++ 2#3 ++ bits12 imm 0 5 ++ 0x23#7)
  | .sd rs1 rs2 imm =>
    some (bits12 imm 5 7 ++ rs2 ++ rs1 ++ 3#3 ++ bits12 imm 0 5 ++ 0x23#7)
  | .addi rd rs1 imm =>
    some (imm ++ rs1 ++ 0#3 ++ rd ++ 0x13#7)
  | .slti rd rs1 imm =>
    some (imm ++ rs1 ++ 2#3 ++ rd ++ 0x13#7)
  | .sltiu rd rs1 imm =>
    some (imm ++ rs1 ++ 3#3 ++ rd ++ 0x13#7)
  | .xori rd rs1 imm =>
    some (imm ++ rs1 ++ 4#3 ++ rd ++ 0x13#7)
  | .ori rd rs1 imm =>
    some (imm ++ rs1 ++ 6#3 ++ rd ++ 0x13#7)
  | .andi rd rs1 imm =>
    some (imm ++ rs1 ++ 7#3 ++ rd ++ 0x13#7)
  | .slli rd rs1 shamt =>
    some (0#6 ++ shamt ++ rs1 ++ 1#3 ++ rd ++ 0x13#7)
  | .srli rd rs1 shamt =>
    some (0#6 ++ shamt ++ rs1 ++ 5#3 ++ rd ++ 0x13#7)
  | .srai rd rs1 shamt =>
    some (16#6 ++ shamt ++ rs1 ++ 5#3 ++ rd ++ 0x13#7)
  | .addiw rd rs1 imm =>
    some (imm ++ rs1 ++ 0#3 ++ rd ++ 0x1b#7)
  | .slliw rd rs1 shamt =>
    some (0#7 ++ shamt ++ rs1 ++ 1#3 ++ rd ++ 0x1b#7)
  | .srliw rd rs1 shamt =>
    some (0#7 ++ shamt ++ rs1 ++ 5#3 ++ rd ++ 0x1b#7)
  | .sraiw rd rs1 shamt =>
    some (32#7 ++ shamt ++ rs1 ++ 5#3 ++ rd ++ 0x1b#7)
  | .add rd rs1 rs2 =>
    some (0#7 ++ rs2 ++ rs1 ++ 0#3 ++ rd ++ 0x33#7)
  | .sll rd rs1 rs2 =>
    some (0#7 ++ rs2 ++ rs1 ++ 1#3 ++ rd ++ 0x33#7)
  | .slt rd rs1 rs2 =>
    some (0#7 ++ rs2 ++ rs1 ++ 2#3 ++ rd ++ 0x33#7)
  | .sltu rd rs1 rs2 =>
    some (0#7 ++ rs2 ++ rs1 ++ 3#3 ++ rd ++ 0x33#7)
  | .xor rd rs1 rs2 =>
    some (0#7 ++ rs2 ++ rs1 ++ 4#3 ++ rd ++ 0x33#7)
  | .srl rd rs1 rs2 =>
    some (0#7 ++ rs2 ++ rs1 ++ 5#3 ++ rd ++ 0x33#7)
  | .or rd rs1 rs2 =>
    some (0#7 ++ rs2 ++ rs1 ++ 6#3 ++ rd ++ 0x33#7)
  | .and rd rs1 rs2 =>
    some (0#7 ++ rs2 ++ rs1 ++ 7#3 ++ rd ++ 0x33#7)
  | .sub rd rs1 rs2 =>
    some (32#7 ++ rs2 ++ rs1 ++ 0#3 ++ rd ++ 0x33#7)
  | .sra rd rs1 rs2 =>
    some (32#7 ++ rs2 ++ rs1 ++ 5#3 ++ rd ++ 0x33#7)
  | .mul rd rs1 rs2 =>
    some (1#7 ++ rs2 ++ rs1 ++ 0#3 ++ rd ++ 0x33#7)
  | .mulh rd rs1 rs2 =>
    some (1#7 ++ rs2 ++ rs1 ++ 1#3 ++ rd ++ 0x33#7)
  | .mulhsu rd rs1 rs2 =>
    some (1#7 ++ rs2 ++ rs1 ++ 2#3 ++ rd ++ 0x33#7)
  | .mulhu rd rs1 rs2 =>
    some (1#7 ++ rs2 ++ rs1 ++ 3#3 ++ rd ++ 0x33#7)
  | .div rd rs1 rs2 =>
    some (1#7 ++ rs2 ++ rs1 ++ 4#3 ++ rd ++ 0x33#7)
  | .divu rd rs1 rs2 =>
    some (1#7 ++ rs2 ++ rs1 ++ 5#3 ++ rd ++ 0x33#7)
  | .rem rd rs1 rs2 =>
    some (1#7 ++ rs2 ++ rs1 ++ 6#3 ++ rd ++ 0x33#7)
  | .remu rd rs1 rs2 =>
    some (1#7 ++ rs2 ++ rs1 ++ 7#3 ++ rd ++ 0x33#7)
  | .addw rd rs1 rs2 =>
    some (0#7 ++ rs2 ++ rs1 ++ 0#3 ++ rd ++ 0x3b#7)
  | .sllw rd rs1 rs2 =>
    some (0#7 ++ rs2 ++ rs1 ++ 1#3 ++ rd ++ 0x3b#7)
  | .srlw rd rs1 rs2 =>
    some (0#7 ++ rs2 ++ rs1 ++ 5#3 ++ rd ++ 0x3b#7)
  | .subw rd rs1 rs2 =>
    some (32#7 ++ rs2 ++ rs1 ++ 0#3 ++ rd ++ 0x3b#7)
  | .sraw rd rs1 rs2 =>
    some (32#7 ++ rs2 ++ rs1 ++ 5#3 ++ rd ++ 0x3b#7)
  | .mulw rd rs1 rs2 =>
    some (1#7 ++ rs2 ++ rs1 ++ 0#3 ++ rd ++ 0x3b#7)
  | .divw rd rs1 rs2 =>
    some (1#7 ++ rs2 ++ rs1 ++ 4#3 ++ rd ++ 0x3b#7)
  | .divuw rd rs1 rs2 =>
    some (1#7 ++ rs2 ++ rs1 ++ 5#3 ++ rd ++ 0x3b#7)
  | .remw rd rs1 rs2 =>
    some (1#7 ++ rs2 ++ rs1 ++ 6#3 ++ rd ++ 0x3b#7)
  | .remuw rd rs1 rs2 =>
    some (1#7 ++ rs2 ++ rs1 ++ 7#3 ++ rd ++ 0x3b#7)
  | .fence fm pred succ rs1 rd =>
    some (fm ++ pred ++ succ ++ rs1 ++ 0#3 ++ rd ++ 0x0f#7)
  | .fenceI rd rs1 imm =>
    some (imm ++ rs1 ++ 1#3 ++ rd ++ 0x0f#7)
  | .amoaddW rd rs1 rs2 aq rl =>
    some (0#5 ++ aq ++ rl ++ rs2 ++ rs1 ++ 2#3 ++ rd ++ 0x2f#7)
  | .amoaddD rd rs1 rs2 aq rl =>
    some (0#5 ++ aq ++ rl ++ rs2 ++ rs1 ++ 3#3 ++ rd ++ 0x2f#7)
  | .amoswapW rd rs1 rs2 aq rl =>
    some (1#5 ++ aq ++ rl ++ rs2 ++ rs1 ++ 2#3 ++ rd ++ 0x2f#7)
  | .amoswapD rd rs1 rs2 aq rl =>
    some (1#5 ++ aq ++ rl ++ rs2 ++ rs1 ++ 3#3 ++ rd ++ 0x2f#7)
  | .lrW rd rs1 aq rl =>
    some (2#5 ++ aq ++ rl ++ 0#5 ++ rs1 ++ 2#3 ++ rd ++ 0x2f#7)
  | .lrD rd rs1 aq rl =>
    some (2#5 ++ aq ++ rl ++ 0#5 ++ rs1 ++ 3#3 ++ rd ++ 0x2f#7)
  | .scW rd rs1 rs2 aq rl =>
    some (3#5 ++ aq ++ rl ++ rs2 ++ rs1 ++ 2#3 ++ rd ++ 0x2f#7)
  | .scD rd rs1 rs2 aq rl =>
    some (3#5 ++ aq ++ rl ++ rs2 ++ rs1 ++ 3#3 ++ rd ++ 0x2f#7)
  | .amoxorW rd rs1 rs2 aq rl =>
    some (4#5 ++ aq ++ rl ++ rs2 ++ rs1 ++ 2#3 ++ rd ++ 0x2f#7)
  | .amoxorD rd rs1 rs2 aq rl =>
    some (4#5 ++ aq ++ rl ++ rs2 ++ rs1 ++ 3#3 ++ rd ++ 0x2f#7)
  | .amoorW rd rs1 rs2 aq rl =>
    some (8#5 ++ aq ++ rl ++ rs2 ++ rs1 ++ 2#3 ++ rd ++ 0x2f#7)
  | .amoorD rd rs1 rs2 aq rl =>
    some (8#5 ++ aq ++ rl ++ rs2 ++ rs1 ++ 3#3 ++ rd ++ 0x2f#7)
  | .amoandW rd rs1 rs2 aq rl =>
    some (12#5 ++ aq ++ rl ++ rs2 ++ rs1 ++ 2#3 ++ rd ++ 0x2f#7)
  | .amoandD rd rs1 rs2 aq rl =>
    some (12#5 ++ aq ++ rl ++ rs2 ++ rs1 ++ 3#3 ++ rd ++ 0x2f#7)
  | .amominW rd rs1 rs2 aq rl =>
    some (16#5 ++ aq ++ rl ++ rs2 ++ rs1 ++ 2#3 ++ rd ++ 0x2f#7)
  | .amominD rd rs1 rs2 aq rl =>
    some (16#5 ++ aq ++ rl ++ rs2 ++ rs1 ++ 3#3 ++ rd ++ 0x2f#7)
  | .amomaxW rd rs1 rs2 aq rl =>
    some (20#5 ++ aq ++ rl ++ rs2 ++ rs1 ++ 2#3 ++ rd ++ 0x2f#7)
  | .amomaxD rd rs1 rs2 aq rl =>
    some (20#5 ++ aq ++ rl ++ rs2 ++ rs1 ++ 3#3 ++ rd ++ 0x2f#7)
  | .amominuW rd rs1 rs2 aq rl =>
    some (24#5 ++ aq ++ rl ++ rs2 ++ rs1 ++ 2#3 ++ rd ++ 0x2f#7)
  | .amominuD rd rs1 rs2 aq rl =>
    some (24#5 ++ aq ++ rl ++ rs2 ++ rs1 ++ 3#3 ++ rd ++ 0x2f#7)
  | .amomaxuW rd rs1 rs2 aq rl =>
    some (28#5 ++ aq ++ rl ++ rs2 ++ rs1 ++ 2#3 ++ rd ++ 0x2f#7)
  | .amomaxuD rd rs1 rs2 aq rl =>
    some (28#5 ++ aq ++ rl ++ rs2 ++ rs1 ++ 3#3 ++ rd ++ 0x2f#7)
  | .ecall =>
    some (0#25 ++ 0x73#7)
  | .ebreak =>
    some (8192#25 ++ 0x73#7)
  | .sret =>
    some (2113536#25 ++ 0x73#7)
  | .mret =>
    some (6307840#25 ++ 0x73#7)
  | .wfi =>
    some (2138112#25 ++ 0x73#7)
  | .sfenceVma rs1 rs2 =>
    some (9#7 ++ rs2 ++ rs1 ++ 0#8 ++ 0x73#7)
  | .csrrw rd rs1 csr =>
    some (csr ++ rs1 ++ 1#3 ++ rd ++ 0x73#7)
  | .csrrs rd rs1 csr =>
    some (csr ++ rs1 ++ 2#3 ++ rd ++ 0x73#7)
  | .csrrc rd rs1 csr =>
    some (csr ++ rs1 ++ 3#3 ++ rd ++ 0x73#7)
  | .csrrwi rd uimm csr =>
    some (csr ++ uimm ++ 5#3 ++ rd ++ 0x73#7)
  | .csrrsi rd uimm csr =>
    some (csr ++ uimm ++ 6#3 ++ rd ++ 0x73#7)
  | .csrrci rd uimm csr =>
    some (csr ++ uimm ++ 7#3 ++ rd ++ 0x73#7)
  | .flw rd rs1 imm =>
    some (imm ++ rs1 ++ 2#3 ++ rd ++ 0x07#7)
  | .fsw rs1 rs2 imm =>
    some (bits12 imm 5 7 ++ rs2 ++ rs1 ++ 2#3 ++ bits12 imm 0 5 ++ 0x27#7)
  | .fmaddS rd rs1 rs2 rs3 rm =>
    some (rs3 ++ 0#2 ++ rs2 ++ rs1 ++ rm ++ rd ++ 0x43#7)
  | .fmsubS rd rs1 rs2 rs3 rm =>
    some (rs3 ++ 0#2 ++ rs2 ++ rs1 ++ rm ++ rd ++ 0x47#7)
  | .fnmsubS rd rs1 rs2 rs3 rm =>
    some (rs3 ++ 0#2 ++ rs2 ++ rs1 ++ rm ++ rd ++ 0x4b#7)
  | .fnmaddS rd rs1 rs2 rs3 rm =>
    some (rs3 ++ 0#2 ++ rs2 ++ rs1 ++ rm ++ rd ++ 0x4f#7)
  | .faddS rd rs1 rs2 rm =>
    some (0#7 ++ rs2 ++ rs1 ++ rm ++ rd ++ 0x53#7)
  | .fsubS rd rs1 rs2 rm =>
    some (4#7 ++ rs2 ++ rs1 ++ rm ++ rd ++ 0x53#7)
  | .fmulS rd rs1 rs2 rm =>
    some (8#7 ++ rs2 ++ rs1 ++ rm ++ rd ++ 0x53#7)
  | .fdivS rd rs1 rs2 rm =>
    some (12#7 ++ rs2 ++ rs1 ++ rm ++ rd ++ 0x53#7)
  | .fsqrtS rd rs1 rm =>
    some (1408#12 ++ rs1 ++ rm ++ rd ++ 0x53#7)
  | .fsgnjS rd rs1 rs2 =>
    some (16#7 ++ rs2 ++ rs1 ++ 0#3 ++ rd ++ 0x53#7)
  | .fsgnjnS rd rs1 rs2 =>
    some (16#7 ++ rs2 ++ rs1 ++ 1#3 ++ rd ++ 0x53#7)
  | .fsgnjxS rd rs1 rs2 =>
    some (16#7 ++ rs2 ++ rs1 ++ 2#3 ++ rd ++ 0x53#7)
  | .fminS rd rs1 rs2 =>
    some (20#7 ++ rs2 ++ rs1 ++ 0#3 ++ rd ++ 0x53#7)
  | .fmaxS rd rs1 rs2 =>
    some (20#7 ++ rs2 ++ rs1 ++ 1#3 ++ rd ++ 0x53#7)
  | .fleS rd rs1 rs2 =>
    some (80#7 ++ rs2 ++ rs1 ++ 0#3 ++ rd ++ 0x53#7)
  | .fltS rd rs1 rs2 =>
    some (80#7 ++ rs2 ++ rs1 ++ 1#3 ++ rd ++ 0x53#7)
  | .feqS rd rs1 rs2 =>
    some (80#7 ++ rs2 ++ rs1 ++ 2#3 ++ rd ++ 0x53#7)
  | .fcvtWS rd rs1 rm =>
    some (3072#12 ++ rs1 ++ rm ++ rd ++ 0x53#7)
  | .fcvtWuS rd rs1 rm =>
    some (3073#12 ++ rs1 ++ rm ++ rd ++ 0x53#7)
  | .fcvtLS rd rs1 rm =>
    some (3074#12 ++ rs1 ++ rm ++ rd ++ 0x53#7)
  | .fcvtLuS rd rs1 rm =>
    some (3075#12 ++ rs1 ++ rm ++ rd ++ 0x53#7)
  | .fcvtSW rd rs1 rm =>
    some (3328#12 ++ rs1 ++ rm ++ rd ++ 0x53#7)
  | .fcvtSWu rd rs1 rm =>
    some (3329#12 ++ rs1 ++ rm ++ rd ++ 0x53#7)
  | .fcvtSL rd rs1 rm =>
    some (3330#12 ++ rs1 ++ rm ++ rd ++ 0x53#7)
  | .fcvtSLu rd rs1 rm =>
    some (3331#12 ++ rs1 ++ rm ++ rd ++ 0x53#7)
  | .fmvXW rd rs1 =>
    some (3584#12 ++ rs1 ++ 0#3 ++ rd ++ 0x53#7)
  | .fclassS rd rs1 =>
    some (3584#12 ++ rs1 ++ 1#3 ++ rd ++ 0x53#7)
  | .fmvWX rd rs1 =>
    some (3840#12 ++ rs1 ++ 0#3 ++ rd ++ 0x53#7)
  | .nonInstructionWord _ => none
  | .kclock rd =>
    some (5#20 ++ rd ++ 0x7b#7)
  | .kident rd sel =>
    some (2#2 ++ sel ++ 5#8 ++ rd ++ 0x7b#7)
  | .cspawn rd rs1 =>
    some (0#12 ++ rs1 ++ 0#3 ++ rd ++ 0x7b#7)
  | .cjoin rd rs1 =>
    some (32#12 ++ rs1 ++ 0#3 ++ rd ++ 0x7b#7)
  | .stclaim rd =>
    some (16384#20 ++ rd ++ 0x7b#7)
  | .cfinish =>
    some (786432#25 ++ 0x7b#7)
  | .cyield rd =>
    some (32768#20 ++ rd ++ 0x7b#7)
  | .rgnmake rd rs1 rs2 =>
    some (5#7 ++ rs2 ++ rs1 ++ 0#3 ++ rd ++ 0x7b#7)
  | .rgnsync rd rs1 rs2 =>
    some (6#7 ++ rs2 ++ rs1 ++ 0#3 ++ rd ++ 0x7b#7)
  | .cinfo rd sel =>
    some (2#2 ++ sel ++ 0#8 ++ rd ++ 0x7b#7)
  | .selection _ => none
  | .dispatch _ => none
  | .preemptionRequest _ _ => none
  | .interruptTrap _ _ => none
  | .quiesceStop _ => none
  | .faultReport _ => none
  | .vcfg rd rs1 rs2 =>
    some (0#7 ++ rs2 ++ rs1 ++ 1#3 ++ rd ++ 0x7b#7)
  | .vregs rd code =>
    some (1#7 ++ code ++ 1#8 ++ rd ++ 0x7b#7)
  | .vcfgi rd rs1 cfg =>
    some (1#1 ++ cfg ++ rs1 ++ 1#3 ++ rd ++ 0x7b#7)
  | .vaddVv vd vs2 vs1 vm =>
    some (0#6 ++ vm ++ vs2 ++ vs1 ++ 0#3 ++ vd ++ 0x0b#7)
  | .vaddVx vd vs2 rs1 vm =>
    some (0#6 ++ vm ++ vs2 ++ rs1 ++ 1#3 ++ vd ++ 0x0b#7)
  | .vaddVi vd vs2 imm vm =>
    some (0#6 ++ vm ++ vs2 ++ imm ++ 2#3 ++ vd ++ 0x0b#7)
  | .vaddVs vd vs2 vs1 vm =>
    some (0#6 ++ vm ++ vs2 ++ vs1 ++ 5#3 ++ vd ++ 0x0b#7)
  | .vsubVv vd vs2 vs1 vm =>
    some (1#6 ++ vm ++ vs2 ++ vs1 ++ 0#3 ++ vd ++ 0x0b#7)
  | .vrsubVx vd vs2 rs1 vm =>
    some (1#6 ++ vm ++ vs2 ++ rs1 ++ 1#3 ++ vd ++ 0x0b#7)
  | .vrsubVi vd vs2 imm vm =>
    some (1#6 ++ vm ++ vs2 ++ imm ++ 2#3 ++ vd ++ 0x0b#7)
  | .vminuVv vd vs2 vs1 vm =>
    some (2#6 ++ vm ++ vs2 ++ vs1 ++ 0#3 ++ vd ++ 0x0b#7)
  | .vminuVx vd vs2 rs1 vm =>
    some (2#6 ++ vm ++ vs2 ++ rs1 ++ 1#3 ++ vd ++ 0x0b#7)
  | .vminuVs vd vs2 vs1 vm =>
    some (2#6 ++ vm ++ vs2 ++ vs1 ++ 5#3 ++ vd ++ 0x0b#7)
  | .vminVv vd vs2 vs1 vm =>
    some (3#6 ++ vm ++ vs2 ++ vs1 ++ 0#3 ++ vd ++ 0x0b#7)
  | .vminVx vd vs2 rs1 vm =>
    some (3#6 ++ vm ++ vs2 ++ rs1 ++ 1#3 ++ vd ++ 0x0b#7)
  | .vminVs vd vs2 vs1 vm =>
    some (3#6 ++ vm ++ vs2 ++ vs1 ++ 5#3 ++ vd ++ 0x0b#7)
  | .vmaxuVv vd vs2 vs1 vm =>
    some (4#6 ++ vm ++ vs2 ++ vs1 ++ 0#3 ++ vd ++ 0x0b#7)
  | .vmaxuVx vd vs2 rs1 vm =>
    some (4#6 ++ vm ++ vs2 ++ rs1 ++ 1#3 ++ vd ++ 0x0b#7)
  | .vmaxuVs vd vs2 vs1 vm =>
    some (4#6 ++ vm ++ vs2 ++ vs1 ++ 5#3 ++ vd ++ 0x0b#7)
  | .vmaxVv vd vs2 vs1 vm =>
    some (5#6 ++ vm ++ vs2 ++ vs1 ++ 0#3 ++ vd ++ 0x0b#7)
  | .vmaxVx vd vs2 rs1 vm =>
    some (5#6 ++ vm ++ vs2 ++ rs1 ++ 1#3 ++ vd ++ 0x0b#7)
  | .vmaxVs vd vs2 vs1 vm =>
    some (5#6 ++ vm ++ vs2 ++ vs1 ++ 5#3 ++ vd ++ 0x0b#7)
  | .vandVv vd vs2 vs1 vm =>
    some (6#6 ++ vm ++ vs2 ++ vs1 ++ 0#3 ++ vd ++ 0x0b#7)
  | .vandVx vd vs2 rs1 vm =>
    some (6#6 ++ vm ++ vs2 ++ rs1 ++ 1#3 ++ vd ++ 0x0b#7)
  | .vandVi vd vs2 imm vm =>
    some (6#6 ++ vm ++ vs2 ++ imm ++ 2#3 ++ vd ++ 0x0b#7)
  | .vandMm vd vs2 vs1 =>
    some (13#7 ++ vs2 ++ vs1 ++ 4#3 ++ vd ++ 0x0b#7)
  | .vandVs vd vs2 vs1 vm =>
    some (6#6 ++ vm ++ vs2 ++ vs1 ++ 5#3 ++ vd ++ 0x0b#7)
  | .vorVv vd vs2 vs1 vm =>
    some (7#6 ++ vm ++ vs2 ++ vs1 ++ 0#3 ++ vd ++ 0x0b#7)
  | .vorVx vd vs2 rs1 vm =>
    some (7#6 ++ vm ++ vs2 ++ rs1 ++ 1#3 ++ vd ++ 0x0b#7)
  | .vorVi vd vs2 imm vm =>
    some (7#6 ++ vm ++ vs2 ++ imm ++ 2#3 ++ vd ++ 0x0b#7)
  | .vorMm vd vs2 vs1 =>
    some (15#7 ++ vs2 ++ vs1 ++ 4#3 ++ vd ++ 0x0b#7)
  | .vorVs vd vs2 vs1 vm =>
    some (7#6 ++ vm ++ vs2 ++ vs1 ++ 5#3 ++ vd ++ 0x0b#7)
  | .vxorVv vd vs2 vs1 vm =>
    some (8#6 ++ vm ++ vs2 ++ vs1 ++ 0#3 ++ vd ++ 0x0b#7)
  | .vxorVx vd vs2 rs1 vm =>
    some (8#6 ++ vm ++ vs2 ++ rs1 ++ 1#3 ++ vd ++ 0x0b#7)
  | .vxorVi vd vs2 imm vm =>
    some (8#6 ++ vm ++ vs2 ++ imm ++ 2#3 ++ vd ++ 0x0b#7)
  | .vxorMm vd vs2 vs1 =>
    some (17#7 ++ vs2 ++ vs1 ++ 4#3 ++ vd ++ 0x0b#7)
  | .vxorVs vd vs2 vs1 vm =>
    some (8#6 ++ vm ++ vs2 ++ vs1 ++ 5#3 ++ vd ++ 0x0b#7)
  | .vsllVv vd vs2 vs1 vm =>
    some (9#6 ++ vm ++ vs2 ++ vs1 ++ 0#3 ++ vd ++ 0x0b#7)
  | .vsllVx vd vs2 rs1 vm =>
    some (9#6 ++ vm ++ vs2 ++ rs1 ++ 1#3 ++ vd ++ 0x0b#7)
  | .vsllVi vd vs2 imm vm =>
    some (9#6 ++ vm ++ vs2 ++ imm ++ 2#3 ++ vd ++ 0x0b#7)
  | .vsrlVv vd vs2 vs1 vm =>
    some (10#6 ++ vm ++ vs2 ++ vs1 ++ 0#3 ++ vd ++ 0x0b#7)
  | .vsrlVx vd vs2 rs1 vm =>
    some (10#6 ++ vm ++ vs2 ++ rs1 ++ 1#3 ++ vd ++ 0x0b#7)
  | .vsrlVi vd vs2 imm vm =>
    some (10#6 ++ vm ++ vs2 ++ imm ++ 2#3 ++ vd ++ 0x0b#7)
  | .vnclipuWv vd vs2 vs1 vm =>
    some (10#6 ++ vm ++ vs2 ++ vs1 ++ 6#3 ++ vd ++ 0x0b#7)
  | .vsraVv vd vs2 vs1 vm =>
    some (11#6 ++ vm ++ vs2 ++ vs1 ++ 0#3 ++ vd ++ 0x0b#7)
  | .vsraVx vd vs2 rs1 vm =>
    some (11#6 ++ vm ++ vs2 ++ rs1 ++ 1#3 ++ vd ++ 0x0b#7)
  | .vsraVi vd vs2 imm vm =>
    some (11#6 ++ vm ++ vs2 ++ imm ++ 2#3 ++ vd ++ 0x0b#7)
  | .vnclipWv vd vs2 vs1 vm =>
    some (11#6 ++ vm ++ vs2 ++ vs1 ++ 6#3 ++ vd ++ 0x0b#7)
  | .vmulVv vd vs2 vs1 vm =>
    some (12#6 ++ vm ++ vs2 ++ vs1 ++ 0#3 ++ vd ++ 0x0b#7)
  | .vmulVx vd vs2 rs1 vm =>
    some (12#6 ++ vm ++ vs2 ++ rs1 ++ 1#3 ++ vd ++ 0x0b#7)
  | .vmulhVv vd vs2 vs1 vm =>
    some (13#6 ++ vm ++ vs2 ++ vs1 ++ 0#3 ++ vd ++ 0x0b#7)
  | .vmulhVx vd vs2 rs1 vm =>
    some (13#6 ++ vm ++ vs2 ++ rs1 ++ 1#3 ++ vd ++ 0x0b#7)
  | .vmaccVv vd vs2 vs1 vm =>
    some (14#6 ++ vm ++ vs2 ++ vs1 ++ 0#3 ++ vd ++ 0x0b#7)
  | .vmaccVx vd vs2 rs1 vm =>
    some (14#6 ++ vm ++ vs2 ++ rs1 ++ 1#3 ++ vd ++ 0x0b#7)
  | .vdot4Vv vd vs2 vs1 vm =>
    some (15#6 ++ vm ++ vs2 ++ vs1 ++ 0#3 ++ vd ++ 0x0b#7)
  | .vdot4Vx vd vs2 rs1 vm =>
    some (15#6 ++ vm ++ vs2 ++ rs1 ++ 1#3 ++ vd ++ 0x0b#7)
  | .vdivuVv vd vs2 vs1 vm =>
    some (16#6 ++ vm ++ vs2 ++ vs1 ++ 0#3 ++ vd ++ 0x0b#7)
  | .vdivuVx vd vs2 rs1 vm =>
    some (16#6 ++ vm ++ vs2 ++ rs1 ++ 1#3 ++ vd ++ 0x0b#7)
  | .vdivVv vd vs2 vs1 vm =>
    some (17#6 ++ vm ++ vs2 ++ vs1 ++ 0#3 ++ vd ++ 0x0b#7)
  | .vdivVx vd vs2 rs1 vm =>
    some (17#6 ++ vm ++ vs2 ++ rs1 ++ 1#3 ++ vd ++ 0x0b#7)
  | .vremuVv vd vs2 vs1 vm =>
    some (18#6 ++ vm ++ vs2 ++ vs1 ++ 0#3 ++ vd ++ 0x0b#7)
  | .vremuVx vd vs2 rs1 vm =>
    some (18#6 ++ vm ++ vs2 ++ rs1 ++ 1#3 ++ vd ++ 0x0b#7)
  | .vremVv vd vs2 vs1 vm =>
    some (19#6 ++ vm ++ vs2 ++ vs1 ++ 0#3 ++ vd ++ 0x0b#7)
  | .vremVx vd vs2 rs1 vm =>
    some (19#6 ++ vm ++ vs2 ++ rs1 ++ 1#3 ++ vd ++ 0x0b#7)
  | .vsadduVv vd vs2 vs1 vm =>
    some (20#6 ++ vm ++ vs2 ++ vs1 ++ 0#3 ++ vd ++ 0x0b#7)
  | .vsadduVx vd vs2 rs1 vm =>
    some (20#6 ++ vm ++ vs2 ++ rs1 ++ 1#3 ++ vd ++ 0x0b#7)
  | .vsadduVi vd vs2 imm vm =>
    some (20#6 ++ vm ++ vs2 ++ imm ++ 2#3 ++ vd ++ 0x0b#7)
  | .vsaddVv vd vs2 vs1 vm =>
    some (21#6 ++ vm ++ vs2 ++ vs1 ++ 0#3 ++ vd ++ 0x0b#7)
  | .vsaddVx vd vs2 rs1 vm =>
    some (21#6 ++ vm ++ vs2 ++ rs1 ++ 1#3 ++ vd ++ 0x0b#7)
  | .vsaddVi vd vs2 imm vm =>
    some (21#6 ++ vm ++ vs2 ++ imm ++ 2#3 ++ vd ++ 0x0b#7)
  | .vssubuVv vd vs2 vs1 vm =>
    some (22#6 ++ vm ++ vs2 ++ vs1 ++ 0#3 ++ vd ++ 0x0b#7)
  | .vssubuVx vd vs2 rs1 vm =>
    some (22#6 ++ vm ++ vs2 ++ rs1 ++ 1#3 ++ vd ++ 0x0b#7)
  | .vssubVv vd vs2 vs1 vm =>
    some (23#6 ++ vm ++ vs2 ++ vs1 ++ 0#3 ++ vd ++ 0x0b#7)
  | .vssubVx vd vs2 rs1 vm =>
    some (23#6 ++ vm ++ vs2 ++ rs1 ++ 1#3 ++ vd ++ 0x0b#7)
  | .vcmpVv cc md vs2 vs1 vm =>
    some (24#6 ++ vm ++ vs2 ++ vs1 ++ 0#3 ++ cc ++ md ++ 0x0b#7)
  | .vcmpVx cc md vs2 rs1 vm =>
    some (24#6 ++ vm ++ vs2 ++ rs1 ++ 1#3 ++ cc ++ md ++ 0x0b#7)
  | .vcmpVi cc md vs2 imm vm =>
    some (24#6 ++ vm ++ vs2 ++ imm ++ 2#3 ++ cc ++ md ++ 0x0b#7)
  | .vwadduVv vd vs2 vs1 vm =>
    some (25#6 ++ vm ++ vs2 ++ vs1 ++ 0#3 ++ vd ++ 0x0b#7)
  | .vwadduVx vd vs2 rs1 vm =>
    some (25#6 ++ vm ++ vs2 ++ rs1 ++ 1#3 ++ vd ++ 0x0b#7)
  | .vwadduWv vd vs2 vs1 vm =>
    some (25#6 ++ vm ++ vs2 ++ vs1 ++ 6#3 ++ vd ++ 0x0b#7)
  | .vwaddVv vd vs2 vs1 vm =>
    some (26#6 ++ vm ++ vs2 ++ vs1 ++ 0#3 ++ vd ++ 0x0b#7)
  | .vwaddVx vd vs2 rs1 vm =>
    some (26#6 ++ vm ++ vs2 ++ rs1 ++ 1#3 ++ vd ++ 0x0b#7)
  | .vwaddWv vd vs2 vs1 vm =>
    some (26#6 ++ vm ++ vs2 ++ vs1 ++ 6#3 ++ vd ++ 0x0b#7)
  | .vwmuluVv vd vs2 vs1 vm =>
    some (27#6 ++ vm ++ vs2 ++ vs1 ++ 0#3 ++ vd ++ 0x0b#7)
  | .vwmuluVx vd vs2 rs1 vm =>
    some (27#6 ++ vm ++ vs2 ++ rs1 ++ 1#3 ++ vd ++ 0x0b#7)
  | .vwmulVv vd vs2 vs1 vm =>
    some (28#6 ++ vm ++ vs2 ++ vs1 ++ 0#3 ++ vd ++ 0x0b#7)
  | .vwmulVx vd vs2 rs1 vm =>
    some (28#6 ++ vm ++ vs2 ++ rs1 ++ 1#3 ++ vd ++ 0x0b#7)
  | .vpermVv vd vs2 vs1 vm =>
    some (29#6 ++ vm ++ vs2 ++ vs1 ++ 0#3 ++ vd ++ 0x0b#7)
  | .vslideVx vd vs2 rs1 vm =>
    some (29#6 ++ vm ++ vs2 ++ rs1 ++ 1#3 ++ vd ++ 0x0b#7)
  | .vslideVi vd vs2 imm vm =>
    some (29#6 ++ vm ++ vs2 ++ imm ++ 2#3 ++ vd ++ 0x0b#7)
  | .vmpopc rd vs2 vm =>
    some (29#6 ++ vm ++ vs2 ++ 7#8 ++ rd ++ 0x0b#7)
  | .vmfirst rd vs2 vm =>
    some (29#6 ++ vm ++ vs2 ++ 15#8 ++ rd ++ 0x0b#7)
  | .vmprefix vd vs2 vm =>
    some (29#6 ++ vm ++ vs2 ++ 23#8 ++ vd ++ 0x0b#7)
  | .viota vd vs2 vm =>
    some (29#6 ++ vm ++ vs2 ++ 31#8 ++ vd ++ 0x0b#7)
  | .vid vd vm =>
    some (29#6 ++ vm ++ 39#13 ++ vd ++ 0x0b#7)
  | .vmnot vd vs2 =>
    some (59#7 ++ vs2 ++ 47#8 ++ vd ++ 0x0b#7)
  | .vlutVv vd vs2 vs1 vm =>
    some (30#6 ++ vm ++ vs2 ++ vs1 ++ 0#3 ++ vd ++ 0x0b#7)
  | .vmvSX vd rs1 =>
    some (1952#12 ++ rs1 ++ 1#3 ++ vd ++ 0x0b#7)
  | .vunpk vd vs2 imm vm =>
    some (30#6 ++ vm ++ vs2 ++ 0#1 ++ imm ++ 2#3 ++ vd ++ 0x0b#7)
  | .vcompress vd vs2 =>
    some (60#7 ++ vs2 ++ 7#8 ++ vd ++ 0x0b#7)
  | .vexpand vd vs2 =>
    some (60#7 ++ vs2 ++ 15#8 ++ vd ++ 0x0b#7)
  | .vmvXS rd vs2 =>
    some (61#7 ++ vs2 ++ 23#8 ++ rd ++ 0x0b#7)
  | .vmvVV vd vs1 =>
    some (2016#12 ++ vs1 ++ 0#3 ++ vd ++ 0x0b#7)
  | .vmergeVvm vd vs2 vs1 =>
    some (62#7 ++ vs2 ++ vs1 ++ 0#3 ++ vd ++ 0x0b#7)
  | .vmvVX vd rs1 =>
    some (2016#12 ++ rs1 ++ 1#3 ++ vd ++ 0x0b#7)
  | .vmergeVxm vd vs2 rs1 =>
    some (62#7 ++ vs2 ++ rs1 ++ 1#3 ++ vd ++ 0x0b#7)
  | .vreshape vd vs2 imm vm =>
    some (31#6 ++ vm ++ vs2 ++ imm ++ 2#3 ++ vd ++ 0x0b#7)
  | .vfaddVv vd vs2 vs1 vm =>
    some (32#6 ++ vm ++ vs2 ++ vs1 ++ 0#3 ++ vd ++ 0x0b#7)
  | .vfaddVf vd vs2 rs1 vm =>
    some (32#6 ++ vm ++ vs2 ++ rs1 ++ 3#3 ++ vd ++ 0x0b#7)
  | .vftsumVs vd vs2 vs1 vm =>
    some (32#6 ++ vm ++ vs2 ++ vs1 ++ 5#3 ++ vd ++ 0x0b#7)
  | .vfsubVv vd vs2 vs1 vm =>
    some (33#6 ++ vm ++ vs2 ++ vs1 ++ 0#3 ++ vd ++ 0x0b#7)
  | .vfsubVf vd vs2 rs1 vm =>
    some (33#6 ++ vm ++ vs2 ++ rs1 ++ 3#3 ++ vd ++ 0x0b#7)
  | .vfosumVs vd vs2 vs1 vm =>
    some (33#6 ++ vm ++ vs2 ++ vs1 ++ 5#3 ++ vd ++ 0x0b#7)
  | .vfmulVv vd vs2 vs1 vm =>
    some (34#6 ++ vm ++ vs2 ++ vs1 ++ 0#3 ++ vd ++ 0x0b#7)
  | .vfmulVf vd vs2 rs1 vm =>
    some (34#6 ++ vm ++ vs2 ++ rs1 ++ 3#3 ++ vd ++ 0x0b#7)
  | .vfdivVv vd vs2 vs1 vm =>
    some (35#6 ++ vm ++ vs2 ++ vs1 ++ 0#3 ++ vd ++ 0x0b#7)
  | .vfdivVf vd vs2 rs1 vm =>
    some (35#6 ++ vm ++ vs2 ++ rs1 ++ 3#3 ++ vd ++ 0x0b#7)
  | .vfminVv vd vs2 vs1 vm =>
    some (36#6 ++ vm ++ vs2 ++ vs1 ++ 0#3 ++ vd ++ 0x0b#7)
  | .vfminVf vd vs2 rs1 vm =>
    some (36#6 ++ vm ++ vs2 ++ rs1 ++ 3#3 ++ vd ++ 0x0b#7)
  | .vfminVs vd vs2 vs1 vm =>
    some (36#6 ++ vm ++ vs2 ++ vs1 ++ 5#3 ++ vd ++ 0x0b#7)
  | .vfmaxVv vd vs2 vs1 vm =>
    some (37#6 ++ vm ++ vs2 ++ vs1 ++ 0#3 ++ vd ++ 0x0b#7)
  | .vfmaxVf vd vs2 rs1 vm =>
    some (37#6 ++ vm ++ vs2 ++ rs1 ++ 3#3 ++ vd ++ 0x0b#7)
  | .vfmaxVs vd vs2 vs1 vm =>
    some (37#6 ++ vm ++ vs2 ++ vs1 ++ 5#3 ++ vd ++ 0x0b#7)
  | .vfmaccVv vd vs2 vs1 vm =>
    some (38#6 ++ vm ++ vs2 ++ vs1 ++ 0#3 ++ vd ++ 0x0b#7)
  | .vfmaccVf vd vs2 rs1 vm =>
    some (38#6 ++ vm ++ vs2 ++ rs1 ++ 3#3 ++ vd ++ 0x0b#7)
  | .vfmsacVv vd vs2 vs1 vm =>
    some (39#6 ++ vm ++ vs2 ++ vs1 ++ 0#3 ++ vd ++ 0x0b#7)
  | .vfmsacVf vd vs2 rs1 vm =>
    some (39#6 ++ vm ++ vs2 ++ rs1 ++ 3#3 ++ vd ++ 0x0b#7)
  | .vfnmaccVv vd vs2 vs1 vm =>
    some (40#6 ++ vm ++ vs2 ++ vs1 ++ 0#3 ++ vd ++ 0x0b#7)
  | .vfnmaccVf vd vs2 rs1 vm =>
    some (40#6 ++ vm ++ vs2 ++ rs1 ++ 3#3 ++ vd ++ 0x0b#7)
  | .vfnmsacVv vd vs2 vs1 vm =>
    some (41#6 ++ vm ++ vs2 ++ vs1 ++ 0#3 ++ vd ++ 0x0b#7)
  | .vfnmsacVf vd vs2 rs1 vm =>
    some (41#6 ++ vm ++ vs2 ++ rs1 ++ 3#3 ++ vd ++ 0x0b#7)
  | .vfsgnjVv vd vs2 vs1 vm =>
    some (42#6 ++ vm ++ vs2 ++ vs1 ++ 0#3 ++ vd ++ 0x0b#7)
  | .vfsgnjVf vd vs2 rs1 vm =>
    some (42#6 ++ vm ++ vs2 ++ rs1 ++ 3#3 ++ vd ++ 0x0b#7)
  | .vfsgnjnVv vd vs2 vs1 vm =>
    some (43#6 ++ vm ++ vs2 ++ vs1 ++ 0#3 ++ vd ++ 0x0b#7)
  | .vfsgnjnVf vd vs2 rs1 vm =>
    some (43#6 ++ vm ++ vs2 ++ rs1 ++ 3#3 ++ vd ++ 0x0b#7)
  | .vfcmpVv cc md vs2 vs1 vm =>
    some (44#6 ++ vm ++ vs2 ++ vs1 ++ 0#3 ++ cc ++ md ++ 0x0b#7)
  | .vfcmpVf cc md vs2 rs1 vm =>
    some (44#6 ++ vm ++ vs2 ++ rs1 ++ 3#3 ++ cc ++ md ++ 0x0b#7)
  | .vfsqrt vd vs2 vm =>
    some (45#6 ++ vm ++ vs2 ++ 7#8 ++ vd ++ 0x0b#7)
  | .vfclass vd vs2 vm =>
    some (45#6 ++ vm ++ vs2 ++ 15#8 ++ vd ++ 0x0b#7)
  | .vfexp2 vd vs2 vm =>
    some (45#6 ++ vm ++ vs2 ++ 23#8 ++ vd ++ 0x0b#7)
  | .vfrcp vd vs2 vm =>
    some (45#6 ++ vm ++ vs2 ++ 31#8 ++ vd ++ 0x0b#7)
  | .vflog2 vd vs2 vm =>
    some (45#6 ++ vm ++ vs2 ++ 39#8 ++ vd ++ 0x0b#7)
  | .vfwmaccF16Vv vd vs2 vs1 vm =>
    some (46#6 ++ vm ++ vs2 ++ vs1 ++ 0#3 ++ vd ++ 0x0b#7)
  | .vfwmaccF16Vf vd vs2 rs1 vm =>
    some (46#6 ++ vm ++ vs2 ++ rs1 ++ 3#3 ++ vd ++ 0x0b#7)
  | .vfwmaccBf16Vv vd vs2 vs1 vm =>
    some (47#6 ++ vm ++ vs2 ++ vs1 ++ 0#3 ++ vd ++ 0x0b#7)
  | .vfwmaccBf16Vf vd vs2 rs1 vm =>
    some (47#6 ++ vm ++ vs2 ++ rs1 ++ 3#3 ++ vd ++ 0x0b#7)
  | .vfcvt vd vs2 sel rf vm =>
    some (12#4 ++ rf ++ vm ++ vs2 ++ sel ++ 7#3 ++ vd ++ 0x0b#7)
  | .vfwdotbs vd vs2 vs1 wf af vm =>
    some (13#4 ++ wf ++ af ++ vm ++ vs2 ++ vs1 ++ 0#3 ++ vd ++ 0x0b#7)
  | .vseed rs1 =>
    some (3360#12 ++ rs1 ++ 32#8 ++ 0x0b#7)
  | .vsbase rs1 =>
    some (3361#12 ++ rs1 ++ 32#8 ++ 0x0b#7)
  | .vsclVx rs1 =>
    some (3362#12 ++ rs1 ++ 32#8 ++ 0x0b#7)
  | .vbq vd vs2 sr fmt =>
    some (105#7 ++ vs2 ++ 0#3 ++ sr ++ fmt ++ 7#3 ++ vd ++ 0x0b#7)
  | .vbdq vd vs2 fmt vm =>
    some (52#6 ++ vm ++ vs2 ++ 2#4 ++ fmt ++ 7#3 ++ vd ++ 0x0b#7)
  | .vfredbs vd vs2 fmt vm =>
    some (52#6 ++ vm ++ vs2 ++ 3#4 ++ fmt ++ 7#3 ++ vd ++ 0x0b#7)
  | .vscl vs2 =>
    some (105#7 ++ vs2 ++ 2272#13 ++ 0x0b#7)
  | .vleE mu hint vd rs1 w vm =>
    some (0#3 ++ mu ++ hint ++ vm ++ 0#5 ++ rs1 ++ 0#1 ++ w ++ vd ++ 0x2b#7)
  | .vseE mu hint vs3 rs1 w vm =>
    some (1#3 ++ mu ++ hint ++ vm ++ 0#5 ++ rs1 ++ 0#1 ++ w ++ vs3 ++ 0x2b#7)
  | .vlseE mu hint vd rs1 rs2 w vm =>
    some (2#3 ++ mu ++ hint ++ vm ++ rs2 ++ rs1 ++ 0#1 ++ w ++ vd ++ 0x2b#7)
  | .vsseE mu hint vs3 rs1 rs2 w vm =>
    some (3#3 ++ mu ++ hint ++ vm ++ rs2 ++ rs1 ++ 0#1 ++ w ++ vs3 ++ 0x2b#7)
  | .vlxeE mu hint vd rs1 vs2 w vm =>
    some (4#3 ++ mu ++ hint ++ vm ++ vs2 ++ rs1 ++ 0#1 ++ w ++ vd ++ 0x2b#7)
  | .vsxeE mu hint vs3 rs1 vs2 w vm =>
    some (5#3 ++ mu ++ hint ++ vm ++ vs2 ++ rs1 ++ 0#1 ++ w ++ vs3 ++ 0x2b#7)
  | .vlt2E mu hint vd rs1 w vm =>
    some (6#3 ++ mu ++ hint ++ vm ++ 0#5 ++ rs1 ++ 0#1 ++ w ++ vd ++ 0x2b#7)
  | .vst2E mu hint vs3 rs1 w vm =>
    some (6#3 ++ mu ++ hint ++ vm ++ 1#5 ++ rs1 ++ 0#1 ++ w ++ vs3 ++ 0x2b#7)
  | .vlr mu hint vd rs1 =>
    some (0#3 ++ mu ++ hint ++ 32#6 ++ rs1 ++ 4#3 ++ vd ++ 0x2b#7)
  | .vsr mu hint vs3 rs1 =>
    some (1#3 ++ mu ++ hint ++ 32#6 ++ rs1 ++ 4#3 ++ vs3 ++ 0x2b#7)
  | .loadLanded _ _ => none
  | .vprefetch mu hint rs1 rs2 =>
    some (7#3 ++ mu ++ hint ++ 32#6 ++ rs1 ++ 3#3 ++ rs2 ++ 0x2b#7)
  | .vresid mu hint rs1 rs2 =>
    some (7#3 ++ mu ++ hint ++ 33#6 ++ rs1 ++ 3#3 ++ rs2 ++ 0x2b#7)
  | .mdiscard mu hint rs1 rs2 =>
    some (7#3 ++ mu ++ hint ++ 34#6 ++ rs1 ++ 3#3 ++ rs2 ++ 0x2b#7)
  | .cclean mu hint rs1 rs2 =>
    some (7#3 ++ mu ++ hint ++ 35#6 ++ rs1 ++ 3#3 ++ rs2 ++ 0x2b#7)
  | .cinval mu hint rs1 rs2 =>
    some (7#3 ++ mu ++ hint ++ 36#6 ++ rs1 ++ 3#3 ++ rs2 ++ 0x2b#7)
  | .tlbinv mu hint rs1 rs2 =>
    some (7#3 ++ mu ++ hint ++ 37#6 ++ rs1 ++ 3#3 ++ rs2 ++ 0x2b#7)
  | .l2conv mu hint rd rs1 =>
    some (7#3 ++ mu ++ hint ++ 38#6 ++ rs1 ++ 3#3 ++ rd ++ 0x2b#7)
  | .l2rest mu hint rd rs1 =>
    some (7#3 ++ mu ++ hint ++ 39#6 ++ rs1 ++ 3#3 ++ rd ++ 0x2b#7)
  | .pageRevival _ _ => none
  | .vamo op vd rs1 vs2 vm =>
    some (7#3 ++ op ++ vm ++ vs2 ++ rs1 ++ 0#3 ++ vd ++ 0x2b#7)
  | .vredmem op vs3 rs1 vm =>
    some (63#6 ++ vm ++ op ++ rs1 ++ 0#3 ++ vs3 ++ 0x2b#7)
  | .vglk vd rs1 vs2 vm =>
    some (56#6 ++ vm ++ vs2 ++ rs1 ++ 1#3 ++ vd ++ 0x2b#7)
  | .vscc md vs3 rs1 vs2 vm =>
    some (15#4 ++ md ++ vm ++ vs2 ++ rs1 ++ 1#3 ++ vs3 ++ 0x2b#7)
  | .kfence pred succ scope =>
    some (226#8 ++ pred ++ 0#1 ++ succ ++ 8#5 ++ scope ++ 0x2b#7)
  | .vfencebar rd rs1 =>
    some (3680#12 ++ rs1 ++ 2#3 ++ rd ++ 0x2b#7)
  | .barinit rd rs1 rs2 =>
    some (117#7 ++ rs2 ++ rs1 ++ 2#3 ++ rd ++ 0x2b#7)
  | .barwait rd rs1 rs2 =>
    some (119#7 ++ rs2 ++ rs1 ++ 2#3 ++ rd ++ 0x2b#7)
  | .qdrain mask =>
    some (1982468#21 ++ mask ++ 0x2b#7)
  | .reservationTimeout _ => none
  | .vectorReservationTimeout _ _ => none
  | .tagScrub _ _ => none
  | .lmode mode =>
    some (0#20 ++ mode ++ 0x5b#7)
  | .lmodeDrained _ => none
  | .lmodeSwitchDone _ => none
  | .mclaim slot =>
    some (32768#20 ++ slot ++ 0x5b#7)
  | .mclaimRx slot =>
    some (40960#20 ++ slot ++ 0x5b#7)
  | .mrelease slot =>
    some (65536#20 ++ slot ++ 0x5b#7)
  | .mtzero tile =>
    some (98304#20 ++ tile ++ 0x5b#7)
  | .mtdrain tile =>
    some (131072#20 ++ tile ++ 0x5b#7)
  | .mchainTacc0 fmt rd rs1 rs2 =>
    some (5#5 ++ fmt ++ rs2 ++ rs1 ++ 0#3 ++ rd ++ 0x5b#7)
  | .mchainTacc1 fmt rd rs1 rs2 =>
    some (6#5 ++ fmt ++ rs2 ++ rs1 ++ 0#3 ++ rd ++ 0x5b#7)
  | .chainLanded _ _ => none
  | .mslotld slot rs1 =>
    some (0#12 ++ rs1 ++ 1#3 ++ slot ++ 0x5b#7)
  | .slotFilled _ _ => none
  | .mwloadGroup0 wf slot =>
    some (1#5 ++ wf ++ 1#13 ++ slot ++ 0x5b#7)
  | .mwloadGroup1 wf slot =>
    some (2#5 ++ wf ++ 1#13 ++ slot ++ 0x5b#7)
  | .mtmv vd tile rs1 =>
    some (12#7 ++ tile ++ rs1 ++ 1#3 ++ vd ++ 0x5b#7)
  | .mtmvc vd tile rs1 =>
    some (16#7 ++ tile ++ rs1 ++ 1#3 ++ vd ++ 0x5b#7)
  | .mvtm tile vs2 rs1 =>
    some (20#7 ++ vs2 ++ rs1 ++ 1#3 ++ tile ++ 0x5b#7)
  | .mvtmc tile vs2 rs1 =>
    some (24#7 ++ vs2 ++ rs1 ++ 1#3 ++ tile ++ 0x5b#7)
  | .mopa g fm tile vs1 vs2 =>
    some (0#4 ++ g ++ fm ++ vs2 ++ vs1 ++ 2#3 ++ tile ++ 0x5b#7)
  | .mopak g fm tile vs1 vs2 =>
    some (2#4 ++ g ++ fm ++ vs2 ++ vs1 ++ 2#3 ++ tile ++ 0x5b#7)
  | .mws g fm tile vs1 =>
    some (4#4 ++ g ++ fm ++ 0#5 ++ vs1 ++ 2#3 ++ tile ++ 0x5b#7)
  | .mtbcast rd rs1 rs2 =>
    some (0#7 ++ rs2 ++ rs1 ++ 4#3 ++ rd ++ 0x5b#7)
  | .mtwait rd rs1 =>
    some (128#12 ++ rs1 ++ 4#3 ++ rd ++ 0x5b#7)
  | .mtqrd rd rs1 =>
    some (256#12 ++ rs1 ++ 4#3 ++ rd ++ 0x5b#7)
  | .mtqwr rs1 rs2 =>
    some (12#7 ++ rs2 ++ rs1 ++ 128#8 ++ 0x5b#7)
  | .mtresume rd rs1 =>
    some (512#12 ++ rs1 ++ 4#3 ++ rd ++ 0x5b#7)
  | .mtresumeSkip rd rs1 =>
    some (544#12 ++ rs1 ++ 4#3 ++ rd ++ 0x5b#7)
  | .mtkill rd rs1 =>
    some (640#12 ++ rs1 ++ 4#3 ++ rd ++ 0x5b#7)
  | .mtfault item rd rs1 =>
    some (6#5 ++ item ++ 0#5 ++ rs1 ++ 4#3 ++ rd ++ 0x5b#7)
  | .mtfetch ms1 =>
    some (0#12 ++ ms1 ++ 160#8 ++ 0x5b#7)
  | .mtfetchNz ms1 ms2 =>
    some (1#7 ++ ms2 ++ ms1 ++ 160#8 ++ 0x5b#7)
  | .mtfetchZ ms1 ms2 =>
    some (2#7 ++ ms2 ++ ms1 ++ 160#8 ++ 0x5b#7)
  | .mtstop =>
    some (1048736#25 ++ 0x5b#7)
  | .mtsend rel dir ms1 =>
    some (2#5 ++ rel ++ dir ++ 0#5 ++ ms1 ++ 160#8 ++ 0x5b#7)
  | .mtrecv acq dir md =>
    some (3#5 ++ acq ++ dir ++ 5#13 ++ md ++ 0x5b#7)
  | .mtid item md =>
    some (4#5 ++ item ++ 5#13 ++ md ++ 0x5b#7)
  | .blockFetch _ _ => none
  | .mtIssue _ _ => none
  | .mtWordComplete _ _ => none
  | .mtUnblock _ _ => none
  | .escapeMove _ => none
  | .cpissue rd rs1 rs2 =>
    some (0#7 ++ rs2 ++ rs1 ++ 2#3 ++ rd ++ 0x7b#7)
  | .cpissuePut rd rs1 rs2 =>
    some (1#7 ++ rs2 ++ rs1 ++ 2#3 ++ rd ++ 0x7b#7)
  | .cpissueGet rd rs1 rs2 =>
    some (2#7 ++ rs2 ++ rs1 ++ 2#3 ++ rd ++ 0x7b#7)
  | .cpwait rd rs1 =>
    some (96#12 ++ rs1 ++ 2#3 ++ rd ++ 0x7b#7)
  | .sleeptil rd rs1 =>
    some (128#12 ++ rs1 ++ 2#3 ++ rd ++ 0x7b#7)
  | .cpsusp rd rs1 =>
    some (160#12 ++ rs1 ++ 2#3 ++ rd ++ 0x7b#7)
  | .cpresm rd rs1 =>
    some (192#12 ++ rs1 ++ 2#3 ++ rd ++ 0x7b#7)
  | .cpcancel rd rs1 =>
    some (224#12 ++ rs1 ++ 2#3 ++ rd ++ 0x7b#7)
  | .cpstat rd rs1 item =>
    some (2#2 ++ item ++ rs1 ++ 2#3 ++ rd ++ 0x7b#7)
  | .copyAccept _ => none
  | .copyBegin _ _ => none
  | .copyDone _ _ _ => none
  | .copyFault _ _ => none
  | .copyStop _ _ _ => none
  | .promiseMiss _ _ => none
  | .ctxsave rd flags =>
    some (0#14 ++ flags ++ 3#3 ++ rd ++ 0x7b#7)
  | .ctxload =>
    some (262240#25 ++ 0x7b#7)
  | .kfail rs1 rs2 =>
    some (2#7 ++ rs2 ++ rs1 ++ 96#8 ++ 0x7b#7)
  | .trapset rd rs1 rs2 =>
    some (3#7 ++ rs2 ++ rs1 ++ 3#3 ++ rd ++ 0x7b#7)
  | .trapsetRet =>
    some (1048672#25 ++ 0x7b#7)
  | .storageErrorTrap _ => none
  | .pwreq rd rs1 rs2 =>
    some (0#7 ++ rs2 ++ rs1 ++ 4#3 ++ rd ++ 0x7b#7)
  | .pwpin rd rs1 =>
    some (32#12 ++ rs1 ++ 4#3 ++ rd ++ 0x7b#7)
  | .pwgrant rd rs1 =>
    some (64#12 ++ rs1 ++ 4#3 ++ rd ++ 0x7b#7)
  | .pwslot rd rs1 rs2 =>
    some (3#7 ++ rs2 ++ rs1 ++ 4#3 ++ rd ++ 0x7b#7)
  | .pwstat rd rs1 item =>
    some (2#2 ++ item ++ rs1 ++ 4#3 ++ rd ++ 0x7b#7)
  | .tokenRefill => none
  | .coreQuiet _ => none
  | .heldLoadRelease _ => none
  | .coreGate _ => none
  | .coreWakeReady _ => none
  | .railAtTarget _ => none
  | .clockAtLevel _ => none
  | .ringLatch _ => none
  | .limitRecordUpdate _ _ _ _ => none
  | .telemetrySample => none
  | .hbmLaneLend _ _ => none
  | .hbmLaneReturn _ _ => none
  | .correctedError _ _ _ _ _ => none
  | .uncorrectableError _ _ _ _ _ => none
  | .fatalError _ _ _ _ => none
  | .moduleReset => none
  | .go _ => none
  | .bootVerify => none
  | .maquetteService _ => none
  | .fullService _ => none
  | .tail _ _ => none
  | .launchPacket _ => none
  | .hostWrite _ _ => none
  | .hostRead _ _ => none
  | .hostAtomicop _ _ _ _ _ => none
  | .atsInvalidation _ _ => none
  | .junctionPortDown _ => none
  | .portRetrain _ => none
  | .maromFailover => none
  | .kmctlTsReset _ => none
  | .kmctlTsSet _ => none
  | .registerWrite _ _ _ => none
  | .junctionPortRequest _ _ _ _ => none
  | .wayDrainComplete _ _ => none

/-- The instruction the decoder reads from the bits of an opcode-table row; none where it refuses them. -/
noncomputable def decodeTableWord (nbits w : Nat) : Option Instr :=
  if nbits = 32 then (decode (BitVec.ofNat 32 w)).toOption else none

end Sys2Proof
end

