-- ==== Sys2Proof/Config.lean ====
section
/-! DEFINITION. What one implementation fixes and the spec leaves open, as constants without a body: nothing in Lean can
evaluate them. A statement that mentions one holds for every value. -/

namespace Sys2Proof.Config

/-- The free values: the n-th value that the spec leaves open in a run (log entry 15). -/
opaque freeWord : Nat → BitVec 64

/-- The 32-byte public key in each of the four fuse slots (16_device_service R381; log entry 16). -/
opaque fuseKey : Nat → BitVec 256

end Sys2Proof.Config
end

