-- ==== Sys2Proof/Machine/State.lean ====
section
/-! DEFINITION. The state of the LX24 as plain data: every piece of state that spec/ gives the module, and
the state after module reset. One core, the core in focus, runs its control thread in `step`; the other cores lie
beside it. -/

namespace Sys2Proof.Machine

/-- Bytes by address, strictly rising, no zero byte listed: an unlisted address reads as zero. -/
abbrev ByteMap := List Host.Cell

/-- Why the machine stops. -/
inductive Fault where
  /-- Raised by `step` when the schedule of inputs names an encoded instruction as an event. An instruction enters
  the machine only through a fetch, so no run of the hardware has such an input: safe. -/
  | notAnEvent
deriving DecidableEq, Repr

/-- Why an instruction has no meaning here. -/
inductive Refusal where
  /-- Raised by an arm of `exec` whose instruction is not modelled yet; safe: no claim can be proved about it. -/
  | notModelled (mnemonic : String)
deriving DecidableEq, Repr

/-- Privilege modes (14_system_traps, R328). -/
inductive Priv where
  | user | supervisor | machine
deriving DecidableEq, Repr

/-- The three lane modes (R13, field LM of kxstatus). -/
inductive LaneMode where
  | vector | threaded | matrix
deriving DecidableEq, Repr

/-- Tile state (R225, field TS of kxstatus). -/
inductive TileState where
  | off | initial | clean | dirty
deriving DecidableEq, Repr

/-- The state of an operand-store slot (R235): Filling (chain) once its chain is accepted, and not yet landed, stands
apart. -/
inductive SlotState where
  | free | ready | fillingLoad | fillingChain | chainLanding
deriving DecidableEq, Repr

/-- The phase of an `lmode` (R221, R222). -/
inductive LmodePhase where
  | none | draining (target : LaneMode) | switching (target : LaneMode)
deriving DecidableEq, Repr

/-- Whether a core's control thread executes (R86, R341, R380). -/
inductive RunState where
  | idle | running | halted
deriving DecidableEq, Repr

/-- Machine and supervisor CSRs of the adopted privileged specification, satp (R182), and the module's own supervisor
CSRs (R329). -/
structure Csrs where
  mstatus : Word
  medeleg : Word
  mideleg : Word
  mie : Word
  mip : Word
  mtvec : Word
  mscratch : Word
  mepc : Word
  mcause : Word
  mtval : Word
  mcounteren : Word
  mcountinhibit : Word
  menvcfg : Word
  stvec : Word
  sscratch : Word
  sepc : Word
  scause : Word
  stval : Word
  scounteren : Word
  senvcfg : Word
  satp : Word
  kresvec : Word
  trapLimit : BitVec 3
  trapDepth : BitVec 3
deriving DecidableEq, Repr

/-- The redirect state of `trapset` (R352). -/
structure Redirect where
  handler : Word
  block : Word
  mask : Word
  active : Bool
deriving DecidableEq, Repr

/-- How far an instruction that waits has gone, where what it has done already stands (R91, R300, R348): a `cfinish` in its
drain or a `ctxsave` waiting for copies, which no interrupt reaches, or a `barwait` that has found its barrier in use. -/
inductive Begun where
  | no | finishing | saving | barrier
deriving DecidableEq, Repr

/-- The scalar reservation of LR (R62): its physical address and the core cycle it was taken, by `Core.clock`. -/
structure Reservation where
  addr : Nat
  cycle : Nat
deriving DecidableEq, Repr

/-- A vector reservation (R292); its cycle is that of `Core.clock`. -/
structure VecReservation where
  element : Nat
  addr : Nat
  cycle : Nat
deriving DecidableEq, Repr

/-- One line of the control thread's instruction or data cache (R55): its physical line and the bytes it held at its
fill, as updated by the core's own stores; `holes` are the sectors that were poisoned at the fill, which it does not hold
(R376). -/
structure CacheLine where
  line : Nat
  data : ByteMap
  holes : List Nat
deriving DecidableEq, Repr

/-- A cached translation (R187): the leaf, where it was read, and what it maps. -/
structure TlbEntry where
  asid : BitVec 16
  level : Nat
  page : Nat
  pteAddr : Nat
  pte : Word
deriving DecidableEq, Repr

/-- A page-table entry of level 0 or 1 that a cluster walker keeps: where it was read, and its value (R187). -/
structure WalkEntry where
  addr : Nat
  pte : Word
deriving DecidableEq, Repr

/-- A discarded page (R189): its physical base, the bits of its size, and its leaf's address. -/
structure Discard where
  base : Nat
  bits : Nat
  pteAddr : Nat
deriving DecidableEq, Repr

/-- The fields of kvcfg (R104). -/
structure VCfg where
  vlx : Bool
  g : Nat
  npend : BitVec 2
  nreg : BitVec 2
  pwr : Bool
  frm : BitVec 3
  ord : Bool
  tail : Bool
  scope : BitVec 3
  sew : BitVec 3
deriving DecidableEq, Repr

/-- The vector state of a core (05_vector_integer, 06, 07, 09). -/
structure VecState where
  kvstart : BitVec 17
  kvfe : BitVec 32
  kvl : BitVec 17
  kvlmax : BitVec 17
  cfg : VCfg
  kvfflags : BitVec 5
  seed : BitVec 32
  bqDelta : BitVec 4
  kstripbase : Word
  kstripcnt : Word
  pitch : BitVec 32
  rows : BitVec 16
  kcpshape : Word
  kvdirty : BitVec 32
  laneMap : BitVec 128
  /-- the register-file slice of each lane, by byte offset in the slice (R12, R20) -/
  vrf : Vector ByteMap 128
  /-- the full/empty bits, 1 for full (R99) -/
  full : BitVec 32
  /-- the registers that each load in flight will make full, oldest first (R200, R201) -/
  inFlight : List (BitVec 32)
  reservations : List VecReservation
  /-- the distinct lines the present `vglk` has tried to reserve, the newest first (R292) -/
  linkLines : List Nat
deriving DecidableEq, Repr

/-- The matrix state of a core (10_matrix). -/
structure MatState where
  mode : LaneMode
  phase : LmodePhase
  ts : TileState
  sk0 : Bool
  sk1 : Bool
  wv : Bool
  wslot : BitVec 3
  wfmt : BitVec 3
  slots : Vector SlotState 8
  /-- the operand store, 128 KiB by byte offset (R12, R236) -/
  store : ByteMap
  /-- the armed weights: the image of WSLOT and of its partner as `mwload` read them (R245) -/
  armed : ByteMap
  kmstep : BitVec 16
  predDepth : BitVec 16
  predCols : BitVec 7
  predRows : BitVec 8
deriving DecidableEq, Repr

/-- The states of a micro-thread (R257). -/
inductive ThreadState where
  | stopped | fetching | ready | executing | blocked | faulted
deriving DecidableEq, Repr

/-- A micro-thread's own state (R252, R257, R258). -/
structure Thread where
  state : ThreadState
  pc : Word
  /-- address of the last word of its block -/
  last : Word
  cause : BitVec 8
  value : Word
  /-- Blocked in a send -/
  inSend : Bool
  /-- core cycles in Blocked -/
  age : Nat
  /-- the fault was met by the block fetch -/
  fetchFault : Bool
  /-- the physical line of the buffer that holds its block -/
  line : Option Nat
  /-- a Blocked transfer has been performed -/
  moved : Bool
  /-- the core cycle of its block fetch's request (R254) -/
  asked : Nat
  /-- the `mtbcast` whose one fetch it waits for, by its number: the model's own (R263) -/
  batch : Option Nat
deriving DecidableEq, Repr

/-- A block buffer (R254): the physical line it is tagged by, and its bytes. -/
structure BlockBuffer where
  line : Nat
  data : ByteMap
deriving DecidableEq, Repr

/-- The threaded-mode state of a core (11_microthreads). Threads not listed are Stopped at address 0 with no record; the
block buffers stand least recently used first. -/
structure ThreadsState where
  threads : List (Nat × Thread)
  /-- counts of the queues of R251 that are not empty -/
  counts : List (Nat × Nat)
  topPort : List Word
  bottomPort : List Word
  /-- the escape buffer: target queue and value (R256) -/
  escape : Option (Nat × Word)
  token : Nat
  /-- the slot each lane position issued from last (R255) -/
  lastIssued : List (Nat × Nat)
  buffers : List BlockBuffer
  /-- frozen by a save (R341, R349) -/
  frozen : Bool
  /-- how many `mtbcast` have numbered their fetches: the model's own (R263) -/
  batches : Nat
deriving DecidableEq, Repr

/-- The states of a run of a continuation that binds a core (R86). -/
inductive RunPhase where
  | binding | running | stopping
deriving DecidableEq, Repr

/-- A continuation bound to a core or held in its siding (R72, R86, R95). -/
structure Continuation where
  record : Word
  region : Nat
  striped : Bool
  phase : RunPhase
  firstDispatch : Nat
  entered : Nat
  saves : Nat
  /-- the satp it was dispatched or restored under (R330, R409) -/
  satp : Word
  /-- what its dispatch or restore charges, in mA (R355) -/
  charge : Nat
  /-- REGION, FLAGS, CODE, FRAME, NEXT and TOTAL as its selection read them (R74) -/
  named : Nat
  flags : Nat
  code : Word
  frame : Word
  next : Word
  total : Word
deriving DecidableEq, Repr

/-- Local copy, put to and get from a peer module (R310, R320). -/
inductive CopyKind where
  | local | put | get
deriving DecidableEq, Repr

/-- The states of a siding (R340). -/
inductive SidingState where
  | empty | held | shadow
deriving DecidableEq, Repr

/-- A core's siding (R329, R335): the image, and the continuation it holds; `blocks` holds the last word of each
micro-thread's block and whether its fault was a fetch fault, and `kinds` the form of each copy, for which the image has
no place (R257, R319). -/
structure Siding where
  state : SidingState
  record : Word
  image : ByteMap
  blocks : List (Nat × (Word × Bool))
  kinds : List CopyKind
  holder : Option Continuation
  /-- an uncorrectable error lies in the image (R376) -/
  bad : Bool
deriving DecidableEq, Repr

/-- The states of a copy (R316). -/
inductive CopyState where
  | free | queued | running | stopping | suspended | done | faulted | cancelled
deriving DecidableEq, Repr

/-- A timetable entry (R315, R411). -/
structure CopyEntry where
  state : CopyState
  gen : BitVec 16
  done : Nat
  promise : Nat
  nprom : Nat
  pc : Word
  lt : Bool
  late : Bool
  obs : Bool
  auto : Bool
  fcause : BitVec 8
  faddr : Word
  tfinal : Nat
  accepted : Bool
  /-- its engine has begun it: it was Running (R316) -/
  begun : Bool
  /-- a stop towards Cancelled (R316) -/
  toCancelled : Bool
  /-- a stop that a save asked for (R316) -/
  bySave : Bool
  /-- its junction port went down, and its fault waits for the spacing of R311 (R386) -/
  lost : Bool
  /-- its present promise has been missed (R314) -/
  missed : Bool
  engine : Nat
  kind : CopyKind
  shape : Word
  src : Word
  dst : Word
  satp : Word
  priv : Priv
  sum : Bool
  mxr : Bool
  /-- station tick of the last advance of the generation (R311) -/
  advanced : Option Nat
  /-- the region of the continuation that issued it, or none: the model's own (R94, R346) -/
  owner : Option Nat
deriving DecidableEq, Repr

/-- Idle, hold and gating of a core (R362, R368). -/
inductive GateState where
  | active
  | ballast
  | hold (since : Nat)
  | waiting (request : Nat)
  | restarting (ready : Nat)
  | gated
deriving DecidableEq, Repr

/-- A core's power state (15_power_governor). -/
structure PowerState where
  /-- the held load H in mA (R356) -/
  held : Nat
  /-- voluntary lane ceiling (R374) -/
  vol : Nat
  /-- lanes powered (R355) -/
  powered : Nat
  /-- what the dispatch or restore charged (R356) -/
  dispatchCharge : Nat
  /-- the mode cost charged outside vector mode (R355) -/
  modeCharge : Nat
  /-- VMU cap level in force (R204, R359) -/
  cap : Nat
  /-- core cycles since qv held an instruction (R361) -/
  qvIdle : Nat
  /-- what lowered cap levels have charged and raised ones not released (R356) -/
  capCharge : Nat
  /-- the load a quiet core has released, in mA (R361) -/
  quietLoad : Nat
  /-- a waiting instruction's charge has been paid (R357) -/
  paid : Bool
  /-- the load that a waiting `pwpin` asks for (R373) -/
  pin : Option Nat
  gate : GateState
  /-- tick of the save whose load is held (R341) -/
  heldSince : Option Nat
  kballast : Word
deriving DecidableEq, Repr

/-- krace (R286). -/
structure Krace where
  count : BitVec 16
  acc : Bool
  writer : BitVec 18
  phase : BitVec 16
deriving DecidableEq, Repr

/-- One core with its control thread, vector memory unit, lanes, matrix array, copies and siding (R12). -/
structure Core where
  id : Nat
  run : RunState
  /-- the word fetched last: the model's own, read for stval of cause 2 -/
  ir : Word32
  /-- where the instruction at pc is interrupted: the model's own (R107, R208, R240) -/
  stopAt : Option Nat
  /-- how far the instruction at pc has gone: the model's own (R91, R300, R348) -/
  begun : Begun
  /-- its control thread has issued an instruction in the present core cycle: the model's own (R367) -/
  issued : Bool
  /-- its control thread waits on a load in flight: the model's own (R367) -/
  stalled : Bool
  /-- the instruction at pc stands in its queue and waits there: the model's own (R361) -/
  inQv : Bool
  /-- the sectors in which the instruction at pc has already counted a conflict: the model's own (R285) -/
  raceSectors : List Nat
  /-- asleep in `sleeptil`, and whether a copy has faulted or missed its promise since: the model's own (R326) -/
  sleep : Option Bool
  regs : Vector Word 32
  fregs : Vector Word32 32
  frm : BitVec 3
  fflags : BitVec 5
  pc : Word
  priv : Priv
  reservation : Option Reservation
  cycle : Word
  /-- core cycles since module reset, which no CSR stops or sets: the model's own (R62, R292) -/
  clock : Nat
  cyclePart : Nat
  instret : Word
  dcache : List CacheLine
  icache : List CacheLine
  /-- the control thread's TLB, 16 entries, the most recently used first (R187) -/
  tlb : List TlbEntry
  /-- the VMU's micro-TLB, 64 entries, likewise (R187) -/
  vtlb : List TlbEntry
  csr : Csrs
  /-- what interrupt 16 asks for: 1, 2 or 3; 0 when none is pending (R332) -/
  stopCause : Nat
  redirect : Redirect
  vec : VecState
  mat : MatState
  mt : ThreadsState
  cont : Option Continuation
  /-- a cause 30 that the pinned dispatch left pending (R80) -/
  rampPending : Bool
  siding : Siding
  copies : Vector CopyEntry 64
  /-- queue qc: entries issued and not yet accepted (R308) -/
  qc : List Nat
  /-- the engines that were permitted when the head of qc got there; none where none was (R308) -/
  headEngines : List Nat
  power : PowerState
  krace : Krace
  khintdrop : Word
  phase : BitVec 16
  lastBump : Option Nat
  /-- scratchpad ways of the core's own slice, and a drain in progress (R190, R198) -/
  converted : Nat
  drain : Option Nat
  /-- uncorrectable or threshold errors waiting to be raised as cause 52 (R331, R376) -/
  storageErrors : List Word
  /-- corrected errors of each lane slice: station tick and lane, newest first (R377) -/
  laneErrors : List (Nat × Nat)
  /-- lanes pending retirement, and lanes for which cause 52 has been raised (R377) -/
  pendingRetire : BitVec 128
  reported : BitVec 128
deriving DecidableEq, Repr

/-- A race tag of one 32-byte sector (R281). -/
structure RaceTag where
  sector : Nat
  writer : BitVec 18
  phase : BitVec 16
deriving DecidableEq, Repr

/-- Classes of an L2 line (R179). -/
inductive LineClass where
  | stream | normal | keep
deriving DecidableEq, Repr

/-- A line in an L2 slice (R178, R179). -/
structure L2Line where
  line : Nat
  slice : Nat
  set : Nat
  way : Nat
  cls : LineClass
  dirty : Bool
deriving DecidableEq, Repr

/-- An entry of a slice's spill table (R284). -/
structure SpillEntry where
  slice : Nat
  line : Nat
  tags : List RaceTag
deriving DecidableEq, Repr

/-- A barrier (R297): level 0 cluster, 1 die, 2 module; the domain's number; the identifier. -/
structure Barrier where
  level : Nat
  domain : Nat
  ident : Nat
  init : Bool
  count : BitVec 16
  arrived : BitVec 16
  gen : BitVec 16
deriving DecidableEq, Repr

/-- The memory system shared by the agents (08_memory_system, 12_sync_model). -/
structure MemState where
  /-- every byte of HBM (by its local-die address), of host memory and of scratchpad -/
  bytes : ByteMap
  tags : List RaceTag
  spill : List SpillEntry
  /-- tags dropped from spill tables (R287) -/
  kracelapse : Word
  /-- poisoned sectors (R376) -/
  poison : List Nat
  /-- the lines the L2 slices hold, least recently used first -/
  l2 : List L2Line
  barriers : List Barrier
  /-- the pages that are discarded (R189) -/
  discards : List Discard
  /-- what the cluster walkers keep, each with its cluster's number in the module (R187) -/
  walkers : List (Nat × WalkEntry)
  /-- the copy engines' translation caches, each entry with 4 × die + engine (R188, R310) -/
  engineTlb : List (Nat × TlbEntry)
deriving DecidableEq, Repr

/-- The states of a cluster's DVFS request (R366). -/
inductive DvfsState where
  | idle | charging | voltUp | freqUp | releasing | freqDown | voltDown | voltAdj
deriving DecidableEq, Repr

/-- An entry of a cluster's ring (R367). -/
structure RingEntry where
  active : Nat
  mstall : Nat
  issue : Nat
  level : Nat
deriving DecidableEq, Repr

/-- A cluster: one voltage and frequency domain (R14, R359, R365 to R368). -/
structure Cluster where
  level : Nat
  target : Nat
  undervolt : Nat
  dvfs : DvfsState
  forced : Bool
  superseded : Bool
  lastStatus : Nat
  maxlvl : Nat
  ceil : Nat
  cap : Nat
  /-- rail target in mV -/
  rail : Nat
  ring : List RingEntry
  samples : Nat
  /-- the three counts since the last latch -/
  active : Nat
  mstall : Nat
  issue : Nat
  /-- the station tick at which the rail or the clock that moves arrives (R365) -/
  arrive : Nat
  /-- the high-water mark of the clock-crossing FIFO (R365) -/
  fifoMark : Nat
  /-- cores waiting for their in-rush slot, first in first out (R368) -/
  wakes : List Nat
deriving DecidableEq, Repr

/-- Who waits in a die's charge queue (R357). -/
inductive Payer where
  | instruction (core : Nat)
  | dispatch (core : Nat)
  | requeue (core : Nat)
  | pin (core : Nat)
  | cap (core : Nat)
  | level (cluster : Nat)
deriving DecidableEq, Repr

/-- A waiting charge (R357). -/
structure Charge where
  payer : Payer
  amount : Nat
  region : Option Nat
deriving DecidableEq, Repr

/-- What a release lets go once B_dn has paid for it (R355). -/
inductive ReleaseKind where
  | load | quiet | gating | level (cluster : Nat)
deriving DecidableEq, Repr

/-- A release waiting for B_dn (R355, R356). -/
structure Release where
  core : Nat
  amount : Nat
  kind : ReleaseKind
  /-- by how much it has grown H, which stops at its bound (R356): the model's own -/
  held : Nat
deriving DecidableEq, Repr

/-- A charge of the last 1,000 station ticks (R357). -/
structure PaidCharge where
  tick : Nat
  region : Nat
  amount : Nat
deriving DecidableEq, Repr

/-- A copy an engine has accepted (R308, R313). -/
structure EngineItem where
  core : Nat
  entry : Nat
  promise : Nat
deriving DecidableEq, Repr

/-- An error counter (R376, R378): source, unit and lane. -/
structure ErrorCounter where
  source : Nat
  unit : Nat
  lane : Nat
  count : BitVec 32
deriving DecidableEq, Repr

/-- One Lenenax die: governor, signal box, copy engines and error logger (R10). -/
structure Die where
  bUp : Nat
  bDn : Nat
  charges : List Charge
  releases : List Release
  history : List PaidCharge
  deficits : List (Nat × Nat)
  pointers : List (Nat × Nat)
  engines : Vector (List EngineItem) 4
  clusters : Vector Cluster 8
  logBase : Nat
  corrected : Word
  uncorrected : Word
  counters : List ErrorCounter
  lent : List Nat
  /-- station tick and UNIT of the event logged last (R379) -/
  lastLog : Option (Nat × Nat)
  /-- station tick and core of the pinned charge deducted last: the model's own (R355) -/
  lastPinned : Option (Nat × Nat)
deriving DecidableEq, Repr

/-- What a fault report holds (R346). -/
structure FaultInfo where
  region : Nat
  cause : Nat
  source : Nat
  core : Nat
  value : Word
  pc : Word
  code : Word
deriving DecidableEq, Repr

/-- A quiescing fault domain (R85, R346): the root of its subtree, the first fault, the cores that were bound, and
whether its report has been made. -/
structure FaultDomain where
  root : Nat
  info : FaultInfo
  bound : List Nat
  reported : Bool
deriving DecidableEq, Repr

/-- An outstanding pre-emption (R83): the record that asked, by the region in whose queue it waits and its address there, and its
victim. -/
structure Preemption where
  region : Nat
  record : Word
  victim : Nat
deriving DecidableEq, Repr

/-- A launch queue of a virtual function (R385) and the region it maps to (R384). -/
structure LaunchQueue where
  qbase : Word
  qlog : Word
  tail : Nat
  head : Nat
  qerrIndex : BitVec 32
  stopped : Bool
  region : Nat
deriving DecidableEq, Repr

/-- The module's service states (R382). -/
inductive ServiceState where
  | awaitImage | verifying | training | maquette | full | refused | fatal
deriving DecidableEq, Repr

/-- A junction port (R320, R386). -/
structure Port where
  inService : Bool
  /-- it has gone down and is not yet retrained (R386) -/
  down : Bool
  ranges : List (Nat × Nat)
deriving DecidableEq, Repr

/-- What an attestation report holds (R381). -/
structure Attestation where
  part : String
  keySlot : Nat
  digest : List Byte
  nonce : BitVec 256
deriving DecidableEq, Repr

/-- Why the module is in Fatal state (R380): an error that was reported, with its die, source, unit and address; a trap
taken in machine mode under R334 by a core; or the failure of both Marom controllers. -/
inductive FatalCause where
  | reported (die : Nat) (source : BitVec 8) (unit : BitVec 16) (addr : Word)
  | machineTrap (core : Nat)
  | controllers
deriving DecidableEq, Repr

/-- What the header of a cast holds (R380). -/
structure Cast where
  cause : FatalCause
  tick : Nat
  mstatus : Word
  laneMaps : List (BitVec 128)
deriving DecidableEq, Repr

/-- What the host reads and writes in BAR0 (R382), the launch queues (R385), the ports, and the controllers (R387). -/
structure DeviceState where
  service : ServiceState
  reason : BitVec 8
  diesok : BitVec 24
  marom : Bool
  imgaddr : Word
  imglen : Word
  nonce : BitVec 256
  castaddr : Word
  castlen : Word
  report : Word
  cntsel : Word
  vfs : Vector LaunchQueue 32
  ports : Vector Port 18
  /-- MSI-X messages sent, by virtual function -/
  messages : List Nat
  /-- the last completion of a host read or AtomicOp or of a peer's get: its bytes, and whether it was poisoned -/
  completion : Option (List Byte × Bool)
  telemetry : Nat
  /-- the PASIDs that the host has assigned to regions; a region not listed has PASID 0 (R176, R384) -/
  pasids : List (Nat × BitVec 20)
  /-- host IOMMU translations held through ATS, by PASID and host page (R384) -/
  ats : List (BitVec 20 × Nat)
  /-- revoked key slots of the fuses (R381) -/
  revoked : List Nat
  /-- what the attestation report written last holds (R381) -/
  attested : Option Attestation
  /-- host pages whose PRI request fails, each under its PASID (R384) -/
  denied : List (BitVec 20 × Nat)
  /-- the corrected errors that make a lane slice reach its threshold (R377) -/
  threshold : Nat
  /-- what the header of the cast written last holds (R380) -/
  cast : Option Cast
  /-- the DVFS table that the active controller has loaded: V(k) in mV (R365, R387) -/
  dvfsTable : Vector Nat 16
deriving DecidableEq, Repr

/-- A step the module's other agents take: an event row; the choice of the core in focus, and the turn of a core's control
thread, so that the control threads of two cores run in any order; a replacement in a cache whose
victim the spec leaves to the implementation (R55, R187); and what the spec lets firmware, the controller, the fuses or
the host set by a way that has no row (R329, R365, R377, R378, R381, R384, R386, R410). -/
inductive Input where
  | event (i : Instr)
  | focus (core : Nat)
  | turn (core : Nat)
  | dropData (core line : Nat)
  | dropInstr (core line : Nat)
  | dropTranslation (core index : Nat)
  | dropMicroTranslation (core index : Nat)
  | dropWalk (index : Nat)
  | dropEngineTranslation (index : Nat)
  | loadDvfs (table : Vector Nat 16)
  | placeLog (die base : Nat)
  | placeRegions (base : Nat)
  | errorThreshold (count : Nat)
  | revokeKey (slot : Nat)
  | mapFunction (vf region : Nat)
  | acceptRanges (port : Nat) (ranges : List (Nat × Nat))
  | bindPasid (region : Nat) (pasid : BitVec 20)
  | hostPage (pasid : BitVec 20) (page : Nat) (granted : Bool)
deriving DecidableEq, Repr

/-- The whole module. -/
structure State where
  core : Core
  others : List Core
  mem : MemState
  dies : Vector Die 24
  /-- station ticks since module reset (R65) -/
  tick : Nat
  /-- the module-wide region-table base (R329, R330) -/
  kregbase : Word
  /-- live regions (R68) and quiescing fault domains (R85) -/
  live : List Nat
  domains : List FaultDomain
  preemptions : List Preemption
  /-- the records that wait in each region's queue, by their addresses, the first to leave first: what the device goes by, whatever
  software writes into a held record (R73, R74) -/
  queues : List (Nat × List Word)
  dev : DeviceState
  /-- what the other agents do next, oldest first: the model's own -/
  inputs : List Input
  /-- how many free values have been drawn: the model's own -/
  free : Nat
deriving DecidableEq, Repr

/-- mstatus after reset: FS Initial, UXL and SXL 64-bit, all else zero. -/
def mstatusReset : Word := 0x0000000A00002000#64

/-- Reset of the machine and supervisor CSRs (R329; the adopted specification; log entry 5). -/
def Csrs.reset : Csrs where
  mstatus := mstatusReset
  medeleg := 0
  mideleg := 0
  mie := 0
  mip := 0
  mtvec := 0
  mscratch := 0
  mepc := 0
  mcause := 0
  mtval := 0
  mcounteren := 7
  mcountinhibit := 0
  menvcfg := 0
  stvec := 0
  sscratch := 0
  sepc := 0
  scause := 0
  stval := 0
  scounteren := 0
  senvcfg := 0
  satp := 0
  kresvec := 0
  trapLimit := 4
  trapDepth := 0

/-- The Reset column of kvcfg (R104). -/
def VCfg.reset : VCfg where
  vlx := false
  g := 0
  npend := 0
  nreg := 3
  pwr := false
  frm := 0
  ord := false
  tail := false
  scope := 0
  sew := 0

/-- Reset of the vector state (R100 to R105, R139, R159, R160, R211, R309, R338; the lane map: log entry 8). -/
def VecState.reset : VecState where
  kvstart := 0
  kvfe := 0
  kvl := 0
  kvlmax := 8192
  cfg := VCfg.reset
  kvfflags := 0
  seed := 0
  bqDelta := 4
  kstripbase := 0
  kstripcnt := 0
  pitch := 0
  rows := 1
  kcpshape := 0x10000000#64
  kvdirty := 0xFFFFFFFF#32
  laneMap := BitVec.allOnes 128
  vrf := Vector.replicate 128 []
  full := BitVec.allOnes 32
  inFlight := []
  reservations := []
  linkLines := []

/-- Reset of the matrix state (R231 to R235). -/
def MatState.reset : MatState where
  mode := .vector
  phase := .none
  ts := .off
  sk0 := false
  sk1 := false
  wv := false
  wslot := 0
  wfmt := 0
  slots := Vector.replicate 8 .free
  store := []
  armed := []
  kmstep := 0
  predDepth := 1
  predCols := 64
  predRows := 128

/-- No micro-thread, empty queues (R250). -/
def ThreadsState.reset : ThreadsState where
  threads := []
  counts := []
  topPort := []
  bottomPort := []
  escape := none
  token := 0
  lastIssued := []
  buffers := []
  frozen := false
  batches := 0

/-- A Free timetable entry of a given generation (R315). -/
def CopyEntry.empty (gen : BitVec 16) : CopyEntry where
  state := .free
  gen := gen
  done := 0
  promise := 0
  nprom := 0
  pc := 0
  lt := false
  late := false
  obs := false
  auto := false
  fcause := 0
  faddr := 0
  tfinal := 0
  accepted := false
  begun := false
  toCancelled := false
  bySave := false
  lost := false
  missed := false
  engine := 0
  kind := .local
  shape := 0
  src := 0
  dst := 0
  satp := 0
  priv := .user
  sum := false
  mxr := false
  advanced := none
  owner := none

/-- A core in hold with nothing held (R356, R364, R368; log entry 11). -/
def PowerState.reset : PowerState where
  held := 0
  vol := 128
  powered := 1
  dispatchCharge := 0
  modeCharge := 0
  cap := 0
  capCharge := 0
  qvIdle := 0
  quietLoad := 0
  paid := false
  pin := none
  gate := .hold 0
  heldSince := none
  kballast := 0

/-- A core right after module reset: idle, in machine mode (log entries 3 to 5). -/
def Core.reset (id : Nat) : Core where
  id := id
  run := .idle
  ir := 0
  stopAt := none
  begun := .no
  issued := false
  stalled := false
  inQv := false
  raceSectors := []
  sleep := none
  regs := Vector.replicate 32 0
  fregs := Vector.replicate 32 0
  frm := 0
  fflags := 0
  pc := 0
  priv := .machine
  reservation := none
  cycle := 0
  clock := 0
  cyclePart := 0
  instret := 0
  dcache := []
  icache := []
  tlb := []
  vtlb := []
  csr := Csrs.reset
  stopCause := 0
  redirect := { handler := 0, block := 0, mask := 0, active := false }
  vec := VecState.reset
  mat := MatState.reset
  mt := ThreadsState.reset
  cont := none
  rampPending := false
  siding := { state := .empty, record := 0, image := [], blocks := [], kinds := [], holder := none, bad := false }
  copies := Vector.replicate 64 (CopyEntry.empty 0)
  qc := []
  headEngines := []
  power := PowerState.reset
  krace := { count := 0, acc := false, writer := 0, phase := 0 }
  khintdrop := 0
  phase := 0
  lastBump := none
  converted := 0
  drain := none
  storageErrors := []
  laneErrors := []
  pendingRetire := 0
  reported := 0

/-- The default DVFS table, V(k) in mV (R365). -/
def defaultTable : Vector Nat 16 :=
  #v[420, 428, 436, 444, 452, 460, 468, 476, 484, 492, 500, 520, 540, 560, 580, 600]

/-- A cluster leaves reset at level 10, 0.500 V (R14, R365; log entry 11). -/
def Cluster.reset : Cluster where
  level := 10
  target := 10
  undervolt := 0
  dvfs := .idle
  forced := false
  superseded := false
  lastStatus := 0
  maxlvl := 15
  ceil := 128
  cap := 0
  rail := 500
  ring := []
  samples := 0
  active := 0
  mstall := 0
  issue := 0
  arrive := 0
  fifoMark := 0
  wakes := []

/-- Both balances of a die are full after reset (R354). -/
def Die.reset : Die where
  bUp := 64000
  bDn := 64000
  charges := []
  releases := []
  history := []
  deficits := []
  pointers := []
  engines := Vector.replicate 4 []
  clusters := Vector.replicate 8 Cluster.reset
  logBase := 0
  corrected := 0
  uncorrected := 0
  counters := []
  lent := []
  lastLog := none
  lastPinned := none

/-- BAR0 and BAR registers at their Reset values (R382, R385). -/
def DeviceState.reset : DeviceState where
  service := .awaitImage
  reason := 0
  diesok := 0
  marom := false
  imgaddr := 0
  imglen := 0
  nonce := 0
  castaddr := 0
  castlen := 0
  report := 0
  cntsel := 0
  vfs := Vector.replicate 32
    { qbase := 0, qlog := 0, tail := 0, head := 0, qerrIndex := 0, stopped := false, region := 0 }
  ports := Vector.replicate 18 { inService := false, down := false, ranges := [] }
  messages := []
  completion := none
  telemetry := 0
  pasids := []
  ats := []
  revoked := []
  attested := none
  denied := []
  threshold := 8
  cast := none
  dvfsTable := defaultTable

/-- The module right after reset. -/
def State.reset : State where
  core := Core.reset 0
  others := []
  mem := { bytes := [], tags := [], spill := [], kracelapse := 0, poison := [], l2 := [], barriers := [], discards := [], walkers := [], engineTlb := [] }
  dies := Vector.replicate 24 Die.reset
  tick := 0
  kregbase := 0
  live := [0]
  domains := []
  preemptions := []
  queues := []
  dev := DeviceState.reset
  inputs := []
  free := 0

end Sys2Proof.Machine
end

