-- ==== Sys2Proof/Machine/Bytes.lean ====
section
/-! DEFINITION. Bytes by address: reading and writing one byte, little-endian values (R60), and ranges. A byte map
lists its addresses strictly rising and never lists a zero byte, so equal contents are equal lists. -/

namespace Sys2Proof.Machine

/-- The byte at an address; an unlisted address reads as zero (log entry 2). -/
def ByteMap.get : ByteMap → Nat → Byte
  | [], _ => 0
  | (k, v) :: m, a => if a = k then v else if a < k then 0 else ByteMap.get m a

/-- Writes one byte and keeps the canonical form: a zero byte is not listed. -/
def ByteMap.set : ByteMap → Nat → Byte → ByteMap
  | [], a, b => if b = 0 then [] else [(a, b)]
  | (k, v) :: m, a, b =>
    if a < k then (if b = 0 then (k, v) :: m else (a, b) :: (k, v) :: m)
    else if a = k then (if b = 0 then m else (k, b) :: m)
    else (k, v) :: ByteMap.set m a b

/-- Every listed address is above `lo`, addresses rise strictly, and no listed byte is zero. -/
def ByteMap.wfFrom : Nat → ByteMap → Bool
  | _, [] => true
  | lo, (k, v) :: m => decide (lo ≤ k) && v != 0 && ByteMap.wfFrom (k + 1) m

/-- The canonical form of a byte map. -/
def ByteMap.wf (m : ByteMap) : Bool := ByteMap.wfFrom 0 m

/-- The `n` bytes from an address as a little-endian number (R60). -/
def ByteMap.read (m : ByteMap) (a : Nat) : Nat → Nat
  | 0 => 0
  | n + 1 => (m.get a).toNat + 256 * ByteMap.read m (a + 1) n

/-- Writes the low `n` bytes of a number, little-endian (R60). -/
def ByteMap.write (m : ByteMap) (a : Nat) : Nat → Nat → ByteMap
  | 0, _ => m
  | n + 1, v => ByteMap.write (m.set a (BitVec.ofNat 8 v)) (a + 1) n (v / 256)

/-- Writes a list of bytes from an address up. -/
def ByteMap.writeBytes (m : ByteMap) (a : Nat) : List Byte → ByteMap
  | [] => m
  | b :: bs => ByteMap.writeBytes (m.set a b) (a + 1) bs

/-- The listed bytes in [lo, lo + n). -/
def ByteMap.slice (m : ByteMap) (lo n : Nat) : ByteMap := m.filter fun c => lo ≤ c.1 && c.1 < lo + n

/-- Makes every byte in [lo, lo + n) zero. -/
def ByteMap.clear (m : ByteMap) (lo n : Nat) : ByteMap := m.filter fun c => !(lo ≤ c.1 && c.1 < lo + n)

/-- The `n` bytes from an address as a list. -/
def ByteMap.readBytes (m : ByteMap) (a : Nat) : Nat → List Byte
  | 0 => []
  | n + 1 => m.get a :: ByteMap.readBytes m (a + 1) n

/-- The number a list of bytes stands for, little-endian. -/
def leValue : List Byte → Nat
  | [] => 0
  | b :: bs => b.toNat + 256 * leValue bs

/-- The `n` low bytes of a number, little-endian. -/
def leBytes : Nat → Nat → List Byte
  | 0, _ => []
  | n + 1, v => BitVec.ofNat 8 v :: leBytes n (v / 256)

/-- Bit `i` of a word. -/
def bit (w : Word) (i : Nat) : Bool := w.getLsbD i

/-- A word with bit `i` set to `b`. -/
def setBit (w : Word) (i : Nat) (b : Bool) : Word :=
  if b then w ||| (1#64 <<< i) else w &&& ~~~(1#64 <<< i)

/-- The `len` bits of a word from bit `lo` up, as a number. -/
def field (w : Word) (lo len : Nat) : Nat := (w.extractLsb' lo len).toNat

/-- A word with the `len` bits from bit `lo` up replaced. -/
def setField (w : Word) (lo len : Nat) (v : Nat) : Word :=
  let m : Word := (BitVec.ofNat 64 (2 ^ len - 1)) <<< lo
  (w &&& ~~~m) ||| ((BitVec.ofNat 64 (v % 2 ^ len)) <<< lo)

/-- The low `n` bits of a number as a two's-complement value (00_scope). -/
def signed (n v : Nat) : Int := if v % 2 ^ n < 2 ^ (n - 1) then (v % 2 ^ n : Int) else (v % 2 ^ n : Int) - 2 ^ n

/-- An integer reduced to `n` bits. -/
def wrap (n : Nat) (v : Int) : Nat := (v % 2 ^ n).toNat

/-- `sext(v, n)` of 00_scope: an n-bit two's-complement value extended to 64 bits. -/
def sext (n v : Nat) : Word := BitVec.ofInt 64 (signed n v)

/-- The value a list of pairs gives a key. -/
def lookup (k : Nat) : List (Nat × α) → Option α
  | [] => none
  | (j, v) :: l => if j = k then some v else lookup k l

/-- A list of pairs with one key's value replaced or added. -/
def assign (k : Nat) (v : α) : List (Nat × α) → List (Nat × α)
  | [] => [(k, v)]
  | (j, w) :: l => if j = k then (k, v) :: l else (j, w) :: assign k v l

/-- A list of pairs without one key. -/
def unassign (k : Nat) (l : List (Nat × α)) : List (Nat × α) := l.filter fun p => p.1 ≠ k

/-- How many of the low `n` bits of a vector are one. -/
def countOnes (w : BitVec m) : Nat → Nat
  | 0 => 0
  | n + 1 => (if w.getLsbD n then 1 else 0) + countOnes w n

end Sys2Proof.Machine
end

