-- ==== Sys2Proof/Machine/Regs.lean ====
section
/-! DEFINITION. How an instruction runs (a state, and the ways to stop: a trap, a wait), the registers of the control
thread, the choice of the core in focus, and the lane geometry (01_machine R19 to R23). -/

namespace Sys2Proof.Machine

/-- Why an instruction did not complete. -/
inductive Stop where
  /-- `raise(c, t)` of 00_scope: the trap is taken with the state as it stands. -/
  | trap (cause : Nat) (tval : Word)
  /-- The instruction waits; it has not begun, and runs again. -/
  | wait
deriving DecidableEq, Repr

/-- An operation on the module in which the core in focus may stop. -/
abbrev Exec := EStateM Stop State

/-- `raise(c, t)` (00_scope). -/
def raise (cause : Nat) (tval : Word) : Exec α := throw (.trap cause tval)

/-- Illegal instruction: cause 2 with stval the word (R40, R108). -/
def illegal : Exec α := do raise 2 ((← get).core.ir.setWidth 64)

/-- Raises cause 2 unless a check holds (R108). -/
def require (b : Bool) : Exec Unit := if b then pure () else illegal

/-- Waits unless a condition holds. -/
def waitUntil (b : Bool) : Exec Unit := if b then pure () else throw .wait

/-- The core in focus waits on a load in flight (R367). -/
def State.stall (s : State) : State := { s with core := { s.core with stalled := true } }

/-- Waits on a load in flight unless a condition holds (R367). -/
def awaitLoads (b : Bool) : Exec Unit := do
  if !b then
    modify State.stall
    throw .wait

/-- Draws a free value (log entry 15). -/
def State.draw (s : State) : Nat × State := ((Config.freeWord s.free).toNat, { s with free := s.free + 1 })

/-- The core in focus with one change. -/
def State.mapCore (f : Core → Core) (s : State) : State := { s with core := f s.core }

/-- The vector state of the core in focus with one change. -/
def State.mapVec (f : VecState → VecState) (s : State) : State :=
  s.mapCore fun c => { c with vec := f c.vec }

/-- The matrix state of the core in focus with one change. -/
def State.mapMat (f : MatState → MatState) (s : State) : State :=
  s.mapCore fun c => { c with mat := f c.mat }

/-- The machine and supervisor CSRs of the core in focus with one change. -/
def State.mapCsr (f : Csrs → Csrs) (s : State) : State :=
  s.mapCore fun c => { c with csr := f c.csr }

/-- The memory system with one change. -/
def State.mapMem (f : MemState → MemState) (s : State) : State := { s with mem := f s.mem }

/-- A core that nothing has used yet and that has not been gated: its reset state, with the core cycles that have passed at
level 10 (R14, R64), stopped where the module is in Fatal state (R380). Every core of a cluster is listed before that
leaves level 10, and every core before it could be gated (`State.listCores`). -/
def State.unused (s : State) (c : Nat) : Core :=
  { Core.reset c with
    cycle := BitVec.ofNat 64 s.tick, clock := s.tick, run := if s.dev.service = .fatal then .halted else .idle }

/-- The core with a given kcoreid (R11). -/
def State.coreOf (s : State) (c : Nat) : Core :=
  if s.core.id = c then s.core else (s.others.find? fun k => k.id = c).getD (s.unused c)

/-- Changes the core with a given kcoreid. -/
def State.updCore (c : Nat) (f : Core → Core) (s : State) : State :=
  if s.core.id = c then { s with core := f s.core }
  else { s with others := f (s.coreOf c) :: s.others.filter fun k => k.id ≠ c }

/-- Changes every core of the module that has left its reset state, and the core in focus. -/
def State.mapCores (f : Core → Core) (s : State) : State :=
  { s with core := f s.core, others := s.others.map f }

/-- Lists those of some cores that are not listed yet. -/
def State.listCores (cs : List Nat) (s : State) : State :=
  { s with others := s.others ++
      (cs.filter fun c => c ≠ s.core.id && !(s.others.any fun k => k.id = c)).map s.unused }

/-- Inserts an element into a list that ascends by a key, after those of the same key. -/
def insertBy (key : α → Nat) (x : α) : List α → List α
  | [] => [x]
  | y :: ys => if key x < key y then x :: y :: ys else y :: insertBy key x ys

/-- A list in ascending order of a key. -/
def sortBy (key : α → Nat) (l : List α) : List α := l.foldl (fun a x => insertBy key x a) []

/-- Every core that has left its reset state, and the core in focus. -/
def State.cores (s : State) : List Core := s.core :: s.others

/-- Brings a core into focus; its control thread is the one that `step` runs. -/
def State.setFocus (c : Nat) (s : State) : State :=
  if s.core.id = c then s
  else { s with core := s.coreOf c, others := s.core :: s.others.filter fun k => k.id ≠ c }

/-- Runs an operation with a core in focus, then returns the focus. -/
def State.onCore (c : Nat) (f : State → State) (s : State) : State :=
  (f (s.setFocus c)).setFocus s.core.id

/-- kcoreid runs from 0 to 2,303 (R11). -/
def coreCount : Nat := 2304

/-- A core of the module that no fatal error has stopped: its copies, micro-threads and mode switch go on. Loads under way land in
a stopped core too, of which R380 does not speak (R11; DESIGN CHOICE, log entry 56). -/
def State.runs (s : State) (c : Nat) : Bool := decide (c < coreCount) && (s.coreOf c).run != .halted

/-- The die of a core (R11). -/
def dieOf (core : Nat) : Nat := core / 96

/-- The cluster of a core within its die (R11). -/
def clusterOf (core : Nat) : Nat := core / 12 % 8

/-- A die's state. -/
def State.die (s : State) (d : Nat) : Die := s.dies[d]?.getD Die.reset

/-- A die with one change. -/
def State.mapDie (d : Nat) (f : Die → Die) (s : State) : State :=
  { s with dies := s.dies.setIfInBounds d (f (s.die d)) }

/-- A cluster's state, by its number in the module (die × 8 + cluster). -/
def State.cluster (s : State) (c : Nat) : Cluster := (s.die (c / 8)).clusters[c % 8]?.getD Cluster.reset

/-- A cluster with one change. -/
def State.mapCluster (c : Nat) (f : Cluster → Cluster) (s : State) : State :=
  s.mapDie (c / 8) fun d => { d with clusters := d.clusters.setIfInBounds (c % 8) (f (s.cluster c)) }

/-- An integer register; x0 reads zero (R59). -/
def State.x (s : State) (r : BitVec 5) : Word := if r = 0 then 0 else s.core.regs[r.toNat]

/-- Writes an integer register; a write of x0 is discarded (R59). -/
def State.setX (r : BitVec 5) (v : Word) (s : State) : State :=
  if r = 0 then s else s.mapCore fun c => { c with regs := c.regs.set r.toNat v }

/-- A floating-point register (R59). -/
def State.f (s : State) (r : BitVec 5) : Word32 := s.core.fregs[r.toNat]

/-- Writes a floating-point register and makes FS Dirty (R59, R75). -/
def State.setF (r : BitVec 5) (v : Word32) (s : State) : State :=
  s.mapCore fun c => { c with fregs := c.fregs.set r.toNat v,
                              csr := { c.csr with mstatus := setField c.csr.mstatus 13 2 3 } }

/-- Reads an integer register. -/
def getX (r : BitVec 5) : Exec Word := do return (← get).x r

/-- Writes an integer register. -/
def putX (r : BitVec 5) (v : Word) : Exec Unit := modify (State.setX r v)

/-- A count or status code as an x register holds it: a negative code in two's complement. -/
def status (v : Int) : Word := BitVec.ofInt 64 v

/-- The lane map's population: A, the number of lanes in service (R20). -/
def lanesInService (map : BitVec 128) : Nat := countOnes map 128

/-- The lanes in service in ascending number: the lane at each position (R20). -/
def lanePositions (map : BitVec 128) : List Nat := (List.range 128).filter fun l => map.getLsbD l

/-- A lane-row whose eight lanes are all in service (R20). -/
def rowIntact (map : BitVec 128) (j : Nat) : Bool := map.extractLsb' (8 * j) 8 == 0xFF#8

/-- The intact lane-rows in ascending order (R226). -/
def intactRows (map : BitVec 128) : List Nat := (List.range 16).filter (rowIntact map)

/-- kmrows: 8 × the intact lane-rows (R20, R234). -/
def kmrowsOf (map : BitVec 128) : Nat := 8 * (intactRows map).length

/-- The register count n that NREG names (R104). -/
def nregOf (code : BitVec 2) : Nat := if code = 1 then 8 else if code = 2 then 16 else 32

/-- The element width in bits that SEW names (R104). -/
def sewOf (code : BitVec 3) : Nat := 8 * 2 ^ (code.toNat % 4)

/-- VLMAX at an element width (R20). -/
def vlmaxOf (map : BitVec 128) (n sew : Nat) : Nat := lanesInService map * (16384 / n) / sew

/-- The number of micro-threads, M (R20, R249). -/
def threadCount (map : BitVec 128) (n : Nat) : Nat := lanesInService map * 256 / n

/-- Lanes in service in the core in focus. -/
def State.lanes (s : State) : Nat := lanesInService s.core.vec.laneMap

/-- The register count in force. -/
def State.nreg (s : State) : Nat := nregOf s.core.vec.cfg.nreg

/-- SEW in bits. -/
def State.sew (s : State) : Nat := sewOf s.core.vec.cfg.sew

/-- kvl as a number. -/
def State.vl (s : State) : Nat := s.core.vec.kvl.toNat

/-- kvstart as a number. -/
def State.vstart (s : State) : Nat := s.core.vec.kvstart.toNat

/-- Sets kvstart (R103). -/
def State.setVstart (n : Nat) (s : State) : State :=
  s.mapVec fun v => { v with kvstart := BitVec.ofNat 17 n }

/-- A slot whose load or accepted chain has landed (R235, R248). -/
def SlotState.landed : SlotState → SlotState
  | .fillingLoad | .chainLanding => .ready
  | x => x

/-- All loads in flight land: their registers become full, and the slots they fill Ready (R201, R244, R248). -/
def State.landAll (s : State) : State :=
  (s.mapVec fun v => { v with full := BitVec.allOnes 32, inFlight := [] }).mapMat fun m =>
    { m with slots := m.slots.map SlotState.landed }

/-- The loads that ql holds: those of the VMU and of operand-store slots whose last element has not landed (R54, R200). -/
def State.loadsInFlight (s : State) : Nat :=
  s.core.vec.inFlight.length + (s.core.mat.slots.toList.filter (· == .fillingLoad)).length

/-- Empties the control thread's data cache (R56). -/
def State.invalidateData (s : State) : State := s.mapCore fun c => { c with dcache := [] }

/-- A lane-mode switch that has only begun its drain is abandoned (R222). -/
def MatState.abandon (m : MatState) : MatState :=
  match m.phase with
  | .draining _ => { m with phase := .none }
  | _ => m

/-- The instruction at pc ends or is left: it waits on nothing, stands in no queue and has counted no conflict. -/
def Core.endInstr (c : Core) : Core :=
  { c with stopAt := none, sleep := none, begun := .no, stalled := false, inQv := false, raceSectors := [] }

/-- A trap entry or a trap return drops the scalar reservation and empties the data cache (R56, R62); a sleep ends, and
what the instruction at pc had begun, a drain for an `lmode` among it, is given up (R222). -/
def State.leaveContext (s : State) : State :=
  s.mapCore fun c => { c with dcache := [], reservation := none, sleep := none, begun := .no, stalled := false,
                              inQv := false, raceSectors := [], mat := c.mat.abandon }

/-- Advances past the instruction and counts it as retired, unless mcountinhibit.IR holds instret (R64). -/
def State.retire (s : State) : State :=
  s.mapCore fun c => { c.endInstr with
    pc := c.pc + 4, instret := if bit c.csr.mcountinhibit 2 then c.instret else c.instret + 1 }

/-- Retires the instruction and continues at an address. -/
def State.retireTo (target : Word) (s : State) : State :=
  s.retire.mapCore fun c => { c with pc := target }

/-- Makes an interrupt pending at a core (R332). -/
def Core.pend (n : Nat) (c : Core) : Core := { c with csr := { c.csr with mip := setBit c.csr.mip n true } }

/-- Makes an interrupt pending at a core when sie, which shows mie's delegated bits, enables it (R314, R359, R366, R379). -/
def Core.pendIfEnabled (n : Nat) (c : Core) : Core := if bit (c.csr.mie &&& c.csr.mideleg) n then c.pend n else c

/-- Makes a stop request pending (R332). -/
def Core.requestStop (why : Nat) (c : Core) : Core := { c.pend 16 with stopCause := why }

/-- Meets the stop request (R332). -/
def Core.meetStop (c : Core) : Core :=
  { c with stopCause := 0, csr := { c.csr with mip := setBit c.csr.mip 16 false } }

end Sys2Proof.Machine
end

