-- ==== Sys2Proof/Machine/Region.lean ====
section
/-! DEFINITION. Physical addresses (08_memory_system R176 to R178) and the region control blocks that the device reads
in memory (04_work R68 to R71, 14_system_traps R330). -/

namespace Sys2Proof.Machine

/-- The window of a physical address, PA[51:48] (R176). -/
def window (pa : Nat) : Nat := pa / 2 ^ 48

/-- The one local-die address of a frame: a spread address names the same HBM (R177). Other windows stand as they are. -/
def canonical (pa : Nat) : Nat :=
  if window pa = 1 then
    let o := pa % 2 ^ 48
    (o / 65536 % 24) * 2 ^ 37 + (o / 65536 / 24) * 65536 + o % 65536
  else pa

/-- Host memory, window 2 (R176). -/
def isHost (pa : Nat) : Bool := window pa == 2

/-- HBM, windows 0 and 1 (R176). -/
def isHbm (pa : Nat) : Bool := window pa == 0 || window pa == 1

/-- The legal ranges of R176, under the restrictions of maquette service (R383) and the slices' converted counts
(R190). -/
def State.legal (s : State) (pa : Nat) : Bool :=
  let maquette := s.dev.service == .maquette
  let o := pa % 2 ^ 48
  match window pa with
  | 0 => o / 2 ^ 42 == 0 && o / 2 ^ 37 ≤ 23 && (!maquette || o / 2 ^ 37 == 0)
  | 1 => o < 3 * 2 ^ 40 && !maquette
  | 2 => true
  | 3 => o / 2 ^ 32 == 0 && o / 2 ^ 20 < coreCount && o % 2 ^ 20 < 131072 * (s.coreOf (o / 2 ^ 20)).converted
  | _ => false

/-- The home slice of a line, by the kcoreid of the core beside it, and its set in the slice (R178; the set is the
model's choice: log entry 17). -/
def homeSlice (pa : Nat) : Nat :=
  if window pa = 3 then pa % 2 ^ 48 / 2 ^ 20
  else
    let q := canonical pa
    q / 2 ^ 37 * 96 + q % 2 ^ 37 / 128 % 96

/-- The bank of a line within its home slice (R178). -/
def homeBank (pa : Nat) : Nat :=
  if window pa = 3 then pa / 128 % 16 else canonical pa % 2 ^ 37 / 128 / 96 % 16

/-- The HBM stack of a die that holds an address (R178). -/
def hbmStack (pa : Nat) : Nat := canonical pa % 2 ^ 37 / 2 ^ 36

/-- The HBM channel of its stack that holds an address (R178). -/
def hbmChannel (pa : Nat) : Nat :=
  let q := canonical pa % 2 ^ 37
  (q / 2 ^ 8 % 32) ^^^ (q / 2 ^ 13 % 32)

/-- The set of a line within its home slice (log entry 17). -/
def homeSet (pa : Nat) : Nat := canonical pa % 2 ^ 37 / 128 / 96 % 1024

/-- Reads `n` bytes of physical memory. -/
def State.readPA (s : State) (pa n : Nat) : Nat := s.mem.bytes.read (canonical pa) n

/-- Writes `n` bytes of physical memory with no other effect. -/
def State.writePA (pa n v : Nat) (s : State) : State :=
  s.mapMem fun m => { m with bytes := m.bytes.write (canonical pa) n v }

/-- The address of region k's control block (R68, R330). -/
def State.rcb (s : State) (k : Nat) : Nat := s.kregbase.toNat + 256 * k

/-- A field of a region's own control block (R69). -/
def State.rcbField (s : State) (k off n : Nat) : Nat := s.readPA (s.rcb k + off) n

/-- Writes a field of a region control block. -/
def State.setRcbField (k off n v : Nat) (s : State) : State := s.writePA (s.rcb k + off) n v

/-- A region's parent (R69). -/
def State.parent (s : State) (k : Nat) : Nat := s.rcbField k 2 2 % 4096

/-- The effective value of an inheritable field: the own field where the OVERRIDE bit is set or at the root, else the
parent's effective value (R70); levels end at 7, which bounds the search. -/
def State.effective (s : State) (overrideBit off n : Nat) : Nat → Nat → Nat
  | 0, k => s.rcbField k off n
  | fuel + 1, k =>
    if k = 0 || (s.rcbField k 12 4).testBit overrideBit then s.rcbField k off n
    else s.effective overrideBit off n fuel (s.parent k)

/-- The deepest level of the region tree (R68). -/
def maxLevel : Nat := 8

/-- Effective PRIO (R69). -/
def State.prio (s : State) (k : Nat) : Nat := s.effective 0 5 1 maxLevel k % 16

/-- Effective WEIGHT, 0 taken as 1 (R69). -/
def State.weight (s : State) (k : Nat) : Nat := max 1 (s.effective 1 6 1 maxLevel k)

/-- Effective MARGIN, 0 taken as 1 (R69). -/
def State.margin (s : State) (k : Nat) : Nat := max 1 (s.effective 2 7 1 maxLevel k % 16)

/-- Effective FLAGS (R69). -/
def State.flags (s : State) (k : Nat) : Nat := s.effective 3 8 2 maxLevel k

/-- PINNED (R69). -/
def State.pinned (s : State) (k : Nat) : Bool := (s.flags k).testBit 0
/-- PREEMPTIBLE (R69). -/
def State.preemptible (s : State) (k : Nat) : Bool := (s.flags k).testBit 1
/-- DEDICATED (R69). -/
def State.dedicated (s : State) (k : Nat) : Bool := (s.flags k).testBit 2
/-- RACEEXC (R69). -/
def State.raceExc (s : State) (k : Nat) : Bool := (s.flags k).testBit 3
/-- ESCALATE (R69). -/
def State.escalate (s : State) (k : Nat) : Bool := (s.flags k).testBit 4

/-- Effective DIEMASK (R69). -/
def State.dieMask (s : State) (k : Nat) : Nat := s.effective 5 24 4 maxLevel k
/-- Effective L2WAYS (R69). -/
def State.l2Ways (s : State) (k : Nat) : Nat := s.effective 6 28 2 maxLevel k
/-- Effective CLUSTERS (R69). -/
def State.clusterMask (s : State) (k : Nat) : Nat := s.effective 7 30 1 maxLevel k
/-- Effective HBMSHARE (R69). -/
def State.hbmShare (s : State) (k : Nat) : Nat := s.effective 8 31 1 maxLevel k
/-- Effective CPMASK (R69). -/
def State.cpMask (s : State) (k : Nat) : Nat := s.effective 9 32 12 maxLevel k
/-- Effective PWRSHARE (R69). -/
def State.pwrShare (s : State) (k : Nat) : Nat := s.effective 10 44 2 maxLevel k

/-- How many of the low `n` bits of a number are one. -/
def popCount (v : Nat) : Nat → Nat
  | 0 => 0
  | n + 1 => (if v.testBit n then 1 else 0) + popCount v n

/-- The cores a dedicated region owns (R70). -/
def State.ownedCount (s : State) (k : Nat) : Nat :=
  12 * popCount (s.clusterMask k) 8 * popCount (s.dieMask k) 24

/-- Effective MINCORES (R70). -/
def State.minCores (s : State) (k : Nat) : Nat :=
  if s.dedicated k then s.ownedCount k else s.rcbField k 16 4

/-- Effective MAXCORES of a region below a bound on levels: the owned cores of a dedicated region; else the own field where
OVERRIDE says so or at the root, else the parent's effective value (R70). -/
def State.maxCoresAt (s : State) : Nat → Nat → Nat
  | 0, k => s.rcbField k 20 4
  | fuel + 1, k =>
    if s.dedicated k then s.ownedCount k
    else if k = 0 || (s.rcbField k 12 4).testBit 4 then s.rcbField k 20 4
    else s.maxCoresAt fuel (s.parent k)

/-- Effective MAXCORES (R70). -/
def State.maxCores (s : State) (k : Nat) : Nat := s.maxCoresAt maxLevel k

/-- A region lies in another's subtree, itself included (R68). -/
def State.inSubtree (s : State) (root : Nat) : Nat → Nat → Bool
  | 0, k => k == root
  | fuel + 1, k => k == root || (k != 0 && s.inSubtree root fuel (s.parent k))

/-- A region lies in another's subtree (R68). -/
def State.within (s : State) (root k : Nat) : Bool := s.inSubtree root maxLevel k

/-- A region is live (R68). -/
def State.isLive (s : State) (k : Nat) : Bool := s.live.contains k

/-- A region lies in a quiescing fault domain (R85). -/
def State.quiescing (s : State) (k : Nat) : Bool := s.domains.any fun d => s.within d.root k

/-- A region that accepts records: live and not quiescing (R85, R88). -/
def State.accepts (s : State) (k : Nat) : Bool := s.isLive k && !s.quiescing k

/-- A core is owned by a live dedicated region whose subtree excludes region g (R71). -/
def State.ownedAgainst (s : State) (core g : Nat) : Bool :=
  s.live.any fun r => s.dedicated r && (s.dieMask r).testBit (dieOf core) &&
    (s.clusterMask r).testBit (clusterOf core) && !s.within r g

/-- A region's entry of the address table, or the parent's where the entry is 0 (R330). -/
def State.addressEntry (s : State) : Nat → Nat → Word
  | 0, k => BitVec.ofNat 64 (s.readPA (s.kregbase.toNat + 0x100000 + 8 * k) 8)
  | fuel + 1, k =>
    let e := s.readPA (s.kregbase.toNat + 0x100000 + 8 * k) 8
    if e = 0 && k ≠ 0 then s.addressEntry fuel (s.parent k) else BitVec.ofNat 64 e

/-- The satp value under which a region's continuations run (R330): always MODE 14 (R182). -/
def State.regionSatp (s : State) (k : Nat) : Word := setField (s.addressEntry maxLevel k) 60 4 14

/-- The region of the continuation bound to the core in focus. -/
def State.region (s : State) : Option Nat := s.core.cont.map (·.region)

end Sys2Proof.Machine
end

