-- ==== Sys2Proof/Machine/Memory.lean ====
section
/-! DEFINITION. The memory system: race tags and spill tables (12_sync_model R281 to R287), the L2 slices' lines
(08_memory_system R179, R180), translation and discarded pages (R182 to R189), and the accesses of an agent. -/

namespace Sys2Proof.Machine

/-! ### Race tags -/

/-- The agent identity of a copy (R273). -/
def copyAgent (core entry : Nat) : Nat := 4096 + 64 * core + entry

/-- A core's timetable entry. -/
def Core.copy (c : Core) (n : Nat) : CopyEntry := c.copies[n]?.getD (CopyEntry.empty 0)

/-- The current phase of an agent: a core's phase counter, or the generation of a copy's entry (R277, R281). -/
def State.agentPhase (s : State) (agent : Nat) : BitVec 16 :=
  if agent < 4096 then (s.coreOf agent).phase
  else ((s.coreOf ((agent - 4096) / 64)).copy ((agent - 4096) % 64)).gen

/-- A tag whose writer has not released since writing (R282). -/
def State.unreleased (s : State) (t : RaceTag) : Bool := s.agentPhase t.writer.toNat == t.phase

/-- The tag of the sector a physical address lies in. -/
def State.tagAt (s : State) (pa : Nat) : Option RaceTag := s.mem.tags.find? fun t => t.sector = pa / 32

/-- Makes a sector untagged (R282), wherever its tag is held (R284). -/
def MemState.untag (pa : Nat) (m : MemState) : MemState :=
  { m with tags := m.tags.filter fun t => t.sector ≠ pa / 32
           spill := (m.spill.map fun e => { e with tags := e.tags.filter fun t => t.sector ≠ pa / 32 }).filter
             fun e => !e.tags.isEmpty }

/-- Tags a sector with a writer and its phase (R282). -/
def MemState.tag (pa writer : Nat) (phase : BitVec 16) (m : MemState) : MemState :=
  { m.untag pa with tags := ⟨pa / 32, BitVec.ofNat 18 writer, phase⟩ :: (m.untag pa).tags }

/-- The conflicting tag that a check by an agent finds, if any; a copy finds none in its own issuer's tags (R282). -/
def State.conflict (s : State) (agent pa : Nat) : Option RaceTag :=
  match s.tagAt pa with
  | none => none
  | some t =>
    if t.writer.toNat = agent || !s.unreleased t then none
    else if agent ≥ 4096 && t.writer.toNat == (agent - 4096) / 64 then none
    else some t

/-- krace records a conflict; COUNT advances, saturating, where it counts (R285, R286). -/
def Krace.record (t : RaceTag) (wrote counted : Bool) (k : Krace) : Krace :=
  { count := if counted && k.count ≠ 65535 then k.count + 1 else k.count
    acc := wrote, writer := t.writer, phase := t.phase }

/-! ### The L2 slices -/

/-- The ways of a slice that still cache lines and are open to allocation (R190, R198). -/
def State.cacheWays (s : State) (slice : Nat) : Nat :=
  let c := s.coreOf slice
  12 - max c.converted (c.drain.getD 0)

/-- The ways of a die's slices that live dedicated regions own whose subtrees exclude region g (R71, R180). -/
def State.reservedWays (s : State) (g : Option Nat) (die : Nat) : Nat :=
  s.live.foldl (fun m r => if s.dedicated r && (s.dieMask r).testBit die && !(g.any (s.within r)) then m ||| s.l2Ways r else m) 0

/-- An access by region g may allocate into a way of a slice: it is in the region's effective L2WAYS, or any outside a
continuation, and no dedicated region keeps it (R71, R180). -/
def State.mayAllocate (s : State) (g : Option Nat) (slice way : Nat) : Bool :=
  (match g with | some g => s.l2Ways g | none => 0xFFF).testBit way && !(s.reservedWays g (dieOf slice)).testBit way

/-- The tags of a line that stay: neither untagged nor released (R284). -/
def State.lineTags (s : State) (line : Nat) : List RaceTag :=
  s.mem.tags.filter fun t => canonical (t.sector * 32) / 128 = line && s.unreleased t

/-- Entries of one slice's spill table (R284). -/
def MemState.spillOf (m : MemState) (slice : Nat) : List SpillEntry := m.spill.filter fun e => e.slice = slice

/-- Adds an entry to a slice's spill table; a full table drops its oldest entry and counts its tags as lapsed
(R284, R287). -/
def MemState.spillPush (e : SpillEntry) (m : MemState) : MemState :=
  match m.spillOf e.slice with
  | old :: rest =>
    if rest.length + 1 < 4096 then { m with spill := m.spill ++ [e] }
    else { m with spill := m.spill.erase old ++ [e], kracelapse := m.kracelapse + BitVec.ofNat 64 old.tags.length }
  | [] => { m with spill := m.spill ++ [e] }

/-- A line leaves its slice: its unreleased tags move to the spill table and its sectors become untagged (R284). -/
def State.evict (line slice : Nat) (s : State) : State :=
  let tags := s.lineTags line
  s.mapMem fun m =>
    let m := { m with l2 := m.l2.filter fun l => l.line ≠ line,
                      tags := m.tags.filter fun t => canonical (t.sector * 32) / 128 ≠ line }
    if tags.isEmpty then m else m.spillPush ⟨slice, line, tags⟩

/-- A fill takes the line's tags back from the spill table (R284). -/
def MemState.refill (line : Nat) (m : MemState) : MemState :=
  match m.spill.find? fun e => e.line = line with
  | none => m
  | some e => { m with spill := m.spill.erase e, tags := e.tags ++ m.tags }

/-- The class a hit leaves (R179). -/
def hitClass (hint old : LineClass) (keepFull : Bool) : LineClass :=
  match hint with
  | .normal => if old = .stream then .normal else old
  | .stream => old
  | .keep => if old = .keep then .keep else if keepFull then .normal else .keep

/-- The victim of a miss among the lines a region may replace: the least recently used of the lowest class (R179). -/
def victim (ls : List L2Line) : Option L2Line :=
  (ls.find? fun l => l.cls = LineClass.stream).orElse fun _ =>
    (ls.find? fun l => l.cls = LineClass.normal).orElse fun _ => ls.find? fun l => l.cls = LineClass.keep

/-- An access to an HBM line for region g: a hit, or a fill that may replace a line of its set; one for which no way is open
still takes the line's tags back from the spill table, so that it is checked (R179, R180, R284, R288). -/
def State.touchFor (g : Option Nat) (pa : Nat) (hint : LineClass) (write : Bool) (s : State) : State :=
  if !isHbm pa then s else
  let line := canonical pa / 128
  let slice := homeSlice pa
  let set := homeSet pa
  let keeps (s : State) : Nat := (s.mem.l2.filter fun l => l.slice = slice && l.set = set && l.cls = .keep).length
  match s.mem.l2.find? fun l => l.line = line with
  | some e =>
    let e' := { e with cls := hitClass hint e.cls (4 ≤ keeps s), dirty := e.dirty || write }
    let others := s.mem.l2.filter fun l => l.line ≠ line
    s.mapMem fun m =>
      { m with l2 := if hint = LineClass.stream then m.l2.map (fun l => if l.line = line then e' else l) else others ++ [e'] }
  | none =>
    let ways := (List.range (s.cacheWays slice)).filter (s.mayAllocate g slice)
    let here := s.mem.l2.filter fun l => l.slice = slice && l.set = set
    let place (w : Nat) (s : State) : State := s.mapMem fun m =>
      let cls : LineClass := if hint = LineClass.keep ∧ 4 ≤ keeps s then LineClass.normal else hint
      let e : L2Line := ⟨line, slice, set, w, cls, write⟩
      ({ m with l2 := if hint = LineClass.stream then e :: m.l2 else m.l2 ++ [e] }).refill line
    match ways.find? fun w => !(here.any fun l => l.way = w) with
    | some w => place w s
    | none => match victim (here.filter fun l => ways.contains l.way) with
      | some v => place v.way (s.evict v.line slice)
      | none => s.mapMem (MemState.refill line)

/-- An access to an HBM line by the core in focus. -/
def State.touch (pa : Nat) (hint : LineClass) (write : Bool) (s : State) : State := s.touchFor s.region pa hint write

/-! ### Translation -/

/-- What an access does (R185): atomics count as stores. -/
inductive Acc where
  | fetch | load | store
deriving DecidableEq, Repr

/-- What the VMU notes in the leaf: nothing, streamed or gathered (R186). -/
inductive PageMark where
  | none | stream | gather
deriving DecidableEq, Repr

/-- Why a translation fails (R176, R185). -/
inductive XFault where
  | page | access
deriving DecidableEq, Repr

/-- The cause a failed translation raises (R176, R185). -/
def XFault.cause : XFault → Acc → Nat
  | .page, .fetch => 12
  | .page, .load => 13
  | .page, .store => 15
  | .access, .fetch => 1
  | .access, .load => 5
  | .access, .store => 7

/-- Where translations are kept (R187, R310): the TLB of the control thread, the VMU's micro-TLB, or the cache of a copy
engine, by 4 × die + engine. -/
inductive Translator where
  | control | vmu | engine (n : Nat)
deriving DecidableEq, Repr

/-- Whose translation it is: the address space, the privilege and the status bits that its checks use, and where it is
kept (R187, R310, R409). -/
structure Space where
  satp : Word
  priv : Priv
  sum : Bool
  mxr : Bool
  via : Translator
deriving DecidableEq, Repr

/-- What a translation found: the address, and the leaf where there is one, with where it is kept. -/
structure Xlated where
  pa : Nat
  leaf : Option (Translator × TlbEntry)
deriving DecidableEq, Repr

/-- satp.MODE = 14, the Kozia format (R182). -/
def kozia (satp : Word) : Bool := field satp 60 4 == 14

/-- A virtual address whose bits [63:48] all equal bit 47 (R183). -/
def legalVa (va : Word) : Bool := field va 47 17 == 0 || field va 47 17 == 0x1FFFF

/-- The index of an address at a level (R183). -/
def levelIndex (va : Word) : Nat → Nat
  | 0 => field va 42 6
  | 1 => field va 29 13
  | _ => field va 16 13

/-- How many low bits a leaf at a level maps (R183). -/
def leafBits (level : Nat) : Nat := if level = 1 then 29 else 16

/-- A table entry that the core's cluster walker keeps (R187); a copy engine has no walker's entries. -/
def State.kept (s : State) (v : Translator) (a : Nat) : Option Word :=
  match v with
  | .engine _ => none
  | _ => (s.mem.walkers.find? fun w => w.1 = s.core.id / 12 && w.2.addr = a).map (·.2.pte)

/-- The leaf of an address, walking from a table at a level (R183, R185): the leaf, and the entries read in memory, the last
first. An entry in a poisoned sector is read as it stands (DESIGN CHOICE, log entry 70). -/
def State.walkFrom (s : State) (sp : Space) (va : Word) :
    Nat → Nat → Nat → List WalkEntry → Except XFault (TlbEntry × List WalkEntry)
  | 0, _, _, _ => .error .page
  | fuel + 1, level, table, trail =>
    if !(isHbm table && s.legal table) then .error .access
    else
      let a := table + 8 * levelIndex va level
      let known := if level = 2 then none else s.kept sp.via a
      let pte : Word := known.getD (BitVec.ofNat 64 (s.readPA a 8))
      let trail := if known.isSome then trail else ⟨a, pte⟩ :: trail
      if !bit pte 0 || (bit pte 2 && !bit pte 1) || field pte 52 12 ≠ 0 then .error .page
      else if field pte 1 3 = 0 then
        if field pte 4 12 ≠ 0 || level = 2 then .error .page
        else s.walkFrom sp va fuel (level + 1) (field pte 16 36 * 65536) trail
      else if level = 0 || (level = 1 && field pte 16 13 ≠ 0) then .error .page
      else .ok (⟨BitVec.ofNat 16 (field sp.satp 44 16), level, va.toNat / 2 ^ leafBits level, a, pte⟩, trail)

/-- The walk from satp (R183). -/
def State.walk (s : State) (sp : Space) (va : Word) : Except XFault (TlbEntry × List WalkEntry) :=
  s.walkFrom sp va 3 0 (field sp.satp 0 44 * 4096) []

/-- The entries that a walk from a table at a level reads in memory, whether it finds a leaf or not, each with its level
(R183). -/
def State.walkReads (s : State) (sp : Space) (va : Word) : Nat → Nat → Nat → List (Nat × WalkEntry)
  | 0, _, _ => []
  | fuel + 1, level, table =>
    if !(isHbm table && s.legal table) then []
    else
      let a := table + 8 * levelIndex va level
      let known := if level = 2 then none else s.kept sp.via a
      let pte : Word := known.getD (BitVec.ofNat 64 (s.readPA a 8))
      let here := if known.isSome then [] else [(level, ⟨a, pte⟩)]
      let pointer := bit pte 0 && field pte 52 12 == 0 && field pte 1 3 == 0 && field pte 4 12 == 0 && level != 2
      if pointer then here ++ s.walkReads sp va fuel (level + 1) (field pte 16 36 * 65536) else here

/-- The entries that the walk from satp reads in memory (R183). -/
def State.walked (s : State) (sp : Space) (va : Word) : List (Nat × WalkEntry) :=
  s.walkReads sp va 3 0 (field sp.satp 0 44 * 4096)

/-- The permission check of the adopted specification (R185 item 5). -/
def permitted (sp : Space) (acc : Acc) (pte : Word) : Bool :=
  let u := bit pte 4
  let user := sp.priv == .user
  match acc with
  | .fetch => bit pte 3 && (u == user)
  | .load => (bit pte 1 || (sp.mxr && bit pte 3)) && (u == user || (!user && sp.sum))
  | .store => bit pte 2 && (u == user || (!user && sp.sum))

/-- The checks of a leaf for an access, and the address it gives (R176, R185 items 5 and 6). -/
def State.checkLeaf (s : State) (sp : Space) (acc : Acc) (va : Word) (e : TlbEntry) : Except XFault Nat :=
  if !permitted sp acc e.pte then .error .page
  else if acc = .store && bit e.pte 13 then .error .page
  else
    let b := leafBits e.level
    let pa := field e.pte b (52 - b) * 2 ^ b + va.toNat % 2 ^ b
    if field e.pte 14 2 ≠ field e.pte 48 4 || !s.legal pa then .error .access else .ok pa

/-- The translations kept in one place. -/
def State.translations (s : State) : Translator → List TlbEntry
  | .control => s.core.tlb
  | .vmu => s.core.vtlb
  | .engine n => (s.mem.engineTlb.filter fun e => e.1 = n).map (·.2)

/-- The translations kept in one place, changed. The TLB holds 16 entries and the micro-TLB 64; the size of an engine's
cache is not given (R187, R310). -/
def State.setTranslations (v : Translator) (l : List TlbEntry) (s : State) : State :=
  match v with
  | .control => s.mapCore fun c => { c with tlb := l.take 16 }
  | .vmu => s.mapCore fun c => { c with vtlb := l.take 64 }
  | .engine n => s.mapMem fun m =>
      { m with engineTlb := l.map (fun e => (n, e)) ++ m.engineTlb.filter fun e => e.1 ≠ n }

/-- A cached translation of an address (R187): global leaves match every ASID. -/
def State.cached (s : State) (sp : Space) (va : Word) : Option TlbEntry :=
  (s.translations sp.via).find? fun e => e.page = va.toNat / 2 ^ leafBits e.level &&
    (bit e.pte 5 || e.asid = BitVec.ofNat 16 (field sp.satp 44 16))

/-- The status bits a translation sets in the leaf (R186); D waits for the write itself. -/
def markBits (mark : PageMark) : Word :=
  0x40#64 ||| (match mark with | .none => 0 | .stream => 0x100#64 | .gather => 0x200#64)

/-- Two physical addresses lie in one 128-byte line. -/
def sameLine (a b : Nat) : Bool := canonical a / 128 == canonical b / 128

/-- A write by an agent takes from every other core the reservations whose addresses a test names (R62, R292). -/
def State.loseReservations (agent : Option Nat) (gone : Nat → Bool) (s : State) : State :=
  s.mapCores fun c =>
    if some c.id = agent then c
    else { c with
      reservation := c.reservation.filter fun r => !gone r.addr
      vec := { c.vec with reservations := c.vec.reservations.filter fun r => !gone r.addr } }

/-- A write by an agent takes from every other core its reservations on the line (R62, R292). -/
def State.breakReservations (agent : Option Nat) (pa : Nat) (s : State) : State := s.loseReservations agent (sameLine pa)

/-- The agent that a walk on behalf of a translator writes for (R62): the core in focus, or none where it is a copy engine's. What
a walker writes for a core counts as that core's own write (DESIGN CHOICE, log entry 94). -/
def State.writerFor (s : State) : Translator → Option Nat
  | .engine _ => none
  | _ => some s.core.id

/-- ORs bits into the leaf in memory, an untagged walker update for an agent (R186, R282); other cores lose their reservations on
the leaf's line (R62, R292). Poison of the leaf's sector stays and stops nothing (DESIGN CHOICE, log entry 70). -/
def State.orLeaf (agent : Option Nat) (e : TlbEntry) (b : Word) (s : State) : State :=
  let v := s.readPA e.pteAddr 8 ||| b.toNat
  ((s.writePA e.pteAddr 8 v).mapMem (MemState.untag e.pteAddr)).breakReservations agent e.pteAddr

/-- Removes from every TLB, micro-TLB, walker and engine cache of the module what the test names (R188). -/
def State.dropTranslations (gone : TlbEntry → Bool) (walk : WalkEntry → Bool) (s : State) : State :=
  (s.mapCores fun c =>
    { c with tlb := c.tlb.filter fun t => !gone t, vtlb := c.vtlb.filter fun t => !gone t }).mapMem fun m =>
    { m with walkers := m.walkers.filter (fun w => !walk w.2), engineTlb := m.engineTlb.filter fun e => !gone e.2 }

/-- Removes what was read at a leaf's address from every place that keeps translations (R189). -/
def State.dropLeaf (pteAddr : Nat) (s : State) : State :=
  s.dropTranslations (fun t => t.pteAddr = pteAddr) (fun w => w.addr = pteAddr)

/-- The physical base of the page a leaf maps. -/
def TlbEntry.base (e : TlbEntry) : Nat :=
  field e.pte (leafBits e.level) (52 - leafBits e.level) * 2 ^ leafBits e.level

/-- A byte of memory, by its canonical address, lies in the page at an address (R177). -/
def pageHolds (base bits k : Nat) : Bool :=
  let inside (pa : Nat) : Bool := base ≤ pa && pa < base + 2 ^ bits
  if window base == 1 && k < 24 * 2 ^ 37 then
    inside (2 ^ 48 + (k % 2 ^ 37 / 65536 * 24 + k / 2 ^ 37) * 65536 + k % 65536)
  else inside k

/-- Zeroes a page (R189, R195): no poison and no tag is left in it. -/
def MemState.zeroPage (base bits : Nat) (m : MemState) : MemState :=
  let inside (t : RaceTag) : Bool := base ≤ t.sector * 32 && t.sector * 32 < base + 2 ^ bits
  { m with bytes := m.bytes.filter fun c => !pageHolds base bits c.1
           tags := m.tags.filter fun t => !inside t
           spill := (m.spill.map fun e => { e with tags := e.tags.filter fun t => !inside t }).filter
             fun e => !e.tags.isEmpty
           poison := m.poison.filter fun p => !pageHolds base bits (p * 32) }

/-- The revival of a discarded page at its first write (R189): every line of it holds zero as a dirty line with no writer
tag, Z is cleared, and its translations are removed; the lines are allocated as the writer's region g may. Every line of the page
and that of its leaf are written for the writer, so that other cores lose their reservations on them (R62, R292). -/
def State.revive (agent : Option Nat) (g : Option Nat) (d : Discard) (s : State) : State :=
  let t := (List.range (2 ^ d.bits / 128)).foldl (fun s i => s.touchFor g (d.base + 128 * i) .normal true) s
  let s := s.mapMem fun m => { t.mem.zeroPage d.base d.bits with
    bytes := (m.zeroPage d.base d.bits).bytes, poison := (m.zeroPage d.base d.bits).poison
    discards := m.discards.filter fun k => k.pteAddr ≠ d.pteAddr }
  let v := s.readPA d.pteAddr 8
  let s := s.writePA d.pteAddr 8 (v &&& (2 ^ 64 - 1 - 0x1000))
  ((s.mapMem (MemState.untag d.pteAddr)).dropLeaf d.pteAddr).loseReservations agent fun a =>
    sameLine d.pteAddr a || pageHolds d.base d.bits (canonical a)

/-- The discarded page that an address lies in, while the leaf that discarded it still has Z (R189). -/
def State.discardAt (s : State) (pa : Nat) : Option Discard :=
  (s.mem.discards.find? fun d => pageHolds d.base d.bits (canonical pa)).filter fun d => (s.readPA d.pteAddr 8).testBit 12

/-- A write that no translation of its own tells of a discard, such as one by a physical address: it revives the page it lies in,
where that is discarded (R189). -/
def State.reviveAt (agent : Option Nat) (g : Option Nat) (pa : Nat) (s : State) : State :=
  match s.discardAt pa with
  | none => s
  | some d => s.revive agent g d

/-- Where an address lies for an access, with no effect: the address, and under the Kozia format the leaf and the table
entries a walk reads (R182 to R187). -/
def State.resolve (s : State) (sp : Space) (acc : Acc) (va : Word) :
    Except XFault (Nat × Option (TlbEntry × List WalkEntry)) :=
  if sp.priv = .machine || !kozia sp.satp then
    if va.toNat ≥ 2 ^ 52 || !s.legal va.toNat then .error .access else .ok (va.toNat, none)
  else if !legalVa va then .error .page
  else
    let found := match s.cached sp va with
      | some e => Except.ok (e, [])
      | none => s.walk sp va
    match found with
    | .error x => .error x
    | .ok (e, trail) =>
      match s.checkLeaf sp acc va e with
      | .error x => .error x
      | .ok pa => .ok (pa, some (e, trail))

/-- The entries that a walk has read are kept by the cluster walker, unless a copy engine walked (R187). -/
def State.keepWalk (v : Translator) (upper : List WalkEntry) (s : State) : State :=
  match v with
  | .engine _ => s
  | _ => if upper.isEmpty then s
    else s.mapMem fun m => { m with walkers := upper.map (fun w => (s.core.id / 12, w)) ++ m.walkers }

/-- What a walk leaves behind (R186, R187): the lines it read are touched, and the cluster walker keeps the entries of
levels 0 and 1. -/
def State.noteWalk (v : Translator) (e : TlbEntry) (trail : List WalkEntry) (s : State) : State :=
  (trail.foldr (fun (w : WalkEntry) (s : State) => s.touch w.addr .normal false) s).keepWalk v
    (trail.filter fun w => w.addr ≠ e.pteAddr || e.level = 1)

/-- What an access that its translation refuses leaves behind: where it made a walk, the lines that this read are touched, and
the cluster walker keeps the entries of levels 0 and 1 (R179, R187). -/
def State.noteMiss (sp : Space) (va : Word) (s : State) : State :=
  if sp.priv = .machine || !kozia sp.satp || !legalVa va || (s.cached sp va).isSome then s
  else
    let read := s.walked sp va
    (read.foldl (fun s w => s.touch w.2.addr .normal false) s).keepWalk sp.via
      (((read.filter fun w => w.1 < 2).map (·.2)).reverse)

/-- Where an address lies for an access that never traps, and what its walk leaves behind (R179, R187). -/
def State.probe (sp : Space) (acc : Acc) (va : Word) (s : State) : Except XFault (Nat × Option TlbEntry) × State :=
  match s.resolve sp acc va with
  | .error x => (.error x, s.noteMiss sp va)
  | .ok (pa, none) => (.ok (pa, none), s)
  | .ok (pa, some (e, trail)) => (.ok (pa, some e), s.noteWalk sp.via e trail)

/-- Translates an address for an access (R182 to R187): A, and S or N, are set in the leaf. A failure raises the
access's fault with stval the address. Of an access of several elements each sets its bits as it is performed, and none sets those
of a later page, where R186 and R207 allow both (DESIGN CHOICE, log entry 90). -/
def translate (sp : Space) (acc : Acc) (mark : PageMark) (va : Word) : Exec Xlated := do
  match (← get).resolve sp acc va with
  | .error x => do
    modify (State.noteMiss sp va)
    raise (x.cause acc) va
  | .ok (pa, none) => return ⟨pa, none⟩
  | .ok (pa, some (e, trail)) =>
    modify (State.noteWalk sp.via e trail)
    let need := markBits mark
    let e' := { e with pte := e.pte ||| need }
    if e.pte &&& need ≠ need then modify fun s => s.orLeaf (s.writerFor sp.via) e need
    modify fun s => s.setTranslations sp.via (e' :: (s.translations sp.via).filter fun t => t.pteAddr ≠ e.pteAddr)
    return ⟨pa, some (sp.via, e')⟩

/-- What one vectorised walk leaves behind, for the pages that its addresses name and the translator does not hold (R187): the
entries of level 0 of every page are read, then those of level 1, then those of level 2, and the cluster walker keeps those of
levels 0 and 1. -/
def State.vectorWalk (sp : Space) (vas : List Word) (s : State) : State :=
  if sp.priv = .machine || !kozia sp.satp then s
  else
    let missing := vas.filter fun va => legalVa va && (s.cached sp va).isNone
    let read : List (Nat × WalkEntry) := (missing.flatMap (s.walked sp)).eraseDups
    let at_ (level : Nat) : List WalkEntry := (read.filter fun w => w.1 = level).map (·.2)
    let order := at_ 0 ++ at_ 1 ++ at_ 2
    (order.foldl (fun (s : State) (w : WalkEntry) => s.touch w.addr .normal false) s).keepWalk sp.via (at_ 1 ++ at_ 0)

/-- The translation that a page of a batch got becomes the first of its translator's, or, where the walk found a fault, none does
(R187). -/
def State.keepPage (sp : Space) (r : Except XFault (Nat × Option (TlbEntry × List WalkEntry))) (s : State) : State :=
  match r with
  | .ok (_, some (e, _)) => s.setTranslations sp.via (e :: (s.translations sp.via).filter fun t => t.pteAddr ≠ e.pteAddr)
  | _ => s

/-- The pages of a batch are translated once, those that miss by one vectorised walk, before any access to them (R187). -/
def State.sortPages (sp : Space) (acc : Acc) (vas : List Word) (s : State) : State :=
  vas.foldl (fun t va => t.keepPage sp (s.resolve sp acc va)) (s.vectorWalk sp vas)

/-- The discarded page that a leaf maps. -/
def TlbEntry.discard (e : TlbEntry) : Discard := ⟨e.base, leafBits e.level, e.pteAddr⟩

/-- D is set in the leaf entry, and in the translations of the translator that were read from it (R186). -/
def State.setDirty (v : Translator) (e : TlbEntry) (s : State) : State :=
  let s := s.orLeaf (s.writerFor v) e 0x80#64
  s.setTranslations v ((s.translations v).map fun t =>
    if t.pteAddr = e.pteAddr then { t with pte := t.pte ||| 0x80#64 } else t)

/-- An agent's write at an address revives the page where it is discarded (R189): by the leaf of the access, or, where that has
no Z or there is none, by the address. -/
def State.reviveFor (agent : Option Nat) (leaf : Option TlbEntry) (pa : Nat) (s : State) : State :=
  match leaf.filter fun e => bit e.pte 12 with
  | some e => s.revive agent s.region e.discard
  | none => s.reviveAt agent s.region pa

/-- What an agent's write at a translated address does first, once nothing prevents it (R186, R189): D is set in the leaf, and a
discarded page is revived. -/
def State.dirtyPage (agent : Option Nat) (x : Xlated) (s : State) : State :=
  (match x.leaf with
    | some (v, e) => if bit e.pte 7 then s else s.setDirty v e
    | none => s).reviveFor agent (x.leaf.map Prod.snd) x.pa

/-- The page is discarded: it reads as zero (R189). -/
def Xlated.discarded (x : Xlated) : Bool := match x.leaf with | some e => bit e.2.pte 12 | none => false

/-- A write at a translated address revives the page it lies in (R189). -/
def State.revives (s : State) (x : Xlated) : Bool := x.discarded || (s.discardAt x.pa).isSome

/-- System atomics are allowed on the page (R184, field Y). -/
def Xlated.system (x : Xlated) : Bool := match x.leaf with | some e => bit e.2.pte 11 | none => false

/-- The address space of the control thread's data accesses, with MPRV (R182, R328). -/
def State.dataSpace (s : State) : Space :=
  let m := s.core.csr.mstatus
  let p := if s.core.priv = .machine && bit m 17 then
      (match field m 11 2 with | 0 => .user | 1 => .supervisor | _ => .machine)
    else s.core.priv
  ⟨s.core.csr.satp, p, bit m 18, bit m 19, .control⟩

/-- The address space of the VMU's accesses for the control thread. -/
def State.vmuSpace (s : State) : Space := { s.dataSpace with via := .vmu }

/-- The address space of the control thread's fetches. -/
def State.fetchSpace (s : State) : Space :=
  ⟨s.core.csr.satp, s.core.priv, bit s.core.csr.mstatus 18, bit s.core.csr.mstatus 19, .control⟩

/-- The address space of micro-threads: user privilege under the continuation's satp; MXR as it stands (R409). With no continuation
bound it is the satp CSR that translates (DESIGN CHOICE, log entry 24). -/
def State.threadSpace (s : State) : Space :=
  ⟨(s.core.cont.map (·.satp)).getD s.core.csr.satp, .user, false, bit s.core.csr.mstatus 19, .vmu⟩

/-! ### Accesses -/

/-- A conflict in a sector that is performed counts once for the instruction that meets it there (R285; log entry 79). -/
def Core.countsRace (pa : Nat) (c : Core) : Bool := !c.raceSectors.contains (pa / 32)

/-- Checks the tag of a sector for an access by an agent of the core in focus (R282, R285): a copy faults with cause 27;
under RACEEXC the access raises cause 27; otherwise krace counts it, once a sector for each instruction. With no continuation
bound there is no region to give the flag, and the access is performed (DESIGN CHOICE, log entry 24). Host memory has no tags
(R281). -/
def checkTag (agent pa : Nat) (write : Bool) (va : Word) : Exec Unit := do
  let s ← get
  if isHost pa then return
  match s.conflict agent pa with
  | none => return
  | some t =>
    if agent ≥ 4096 then raise 27 va
    let exc := match s.region with | some g => s.raceExc g | none => false
    modify (State.mapCore fun c =>
      { c with krace := c.krace.record t write (!exc && c.countsRace pa)
               raceSectors := if exc || !c.countsRace pa then c.raceSectors else pa / 32 :: c.raceSectors })
    if exc then raise 27 va

/-- A sector is poisoned (R376). -/
def State.poisoned (s : State) (pa : Nat) : Bool := s.mem.poison.contains (canonical pa / 32)

/-- A write of all 32 bytes of a sector clears its poison (R376). -/
def MemState.heal (pa : Nat) (m : MemState) : MemState :=
  { m with poison := m.poison.filter fun p => p ≠ canonical pa / 32 }

/-- The PASID under which the host memory of a region is reached; 0 for a region to which the host has assigned none, and where
no continuation is bound (R176, R384; DESIGN CHOICE, log entry 67). -/
def State.pasidOf (s : State) (g : Option Nat) : BitVec 20 :=
  match g with
  | some g => ((s.dev.pasids.find? fun p => p.1 = g).map (·.2)).getD 0
  | none => 0

/-- The host page of an access, under the PASID of the region in focus (R176, R384). -/
def State.hostPage (s : State) (pa : Nat) : BitVec 20 × Nat := (s.pasidOf s.region, pa % 2 ^ 48 / 4096)

/-- A host translation is in use (R384). -/
def State.useTranslation (p : BitVec 20 × Nat) (s : State) : State :=
  { s with dev := { s.dev with ats := if s.dev.ats.contains p then s.dev.ats else p :: s.dev.ats } }

/-- A host page has no translation and its PRI request fails (R384). -/
def DeviceState.refuses (p : BitVec 20 × Nat) (d : DeviceState) : Bool := !d.ats.contains p && d.denied.contains p

/-- The host's translations in use grow by the page of a host access (R384). -/
def State.useHostPage (pa : Nat) (s : State) : State := if isHost pa then s.useTranslation (s.hostPage pa) else s

/-- An access to a host page without a translation makes a PRI request; one that fails gives the access's fault
(R384). -/
def checkHostPage (acc : Acc) (pa : Nat) (va : Word) : Exec Unit := do
  let s ← get
  if isHost pa && s.dev.refuses (s.hostPage pa) then raise (XFault.cause .access acc) va

/-- An access at a translated address meets poison (R376); one to a discarded page, which a write revives, meets the zeros of its
lines (R189). -/
def State.spoiled (s : State) (x : Xlated) : Bool := s.poisoned x.pa && !s.revives x

/-- A plain read of `n` bytes at a translated address (R189, R282, R376). A sector that is poisoned and carries a conflicting
tag gives the cause of the poison, with no conflict recorded: the spec orders neither before the other (DESIGN CHOICE, log
entry 86). -/
def readAt (agent : Nat) (x : Xlated) (va : Word) (n : Nat) (hint : LineClass) : Exec Nat := do
  if x.discarded then return 0
  checkHostPage .load x.pa va
  if (← get).spoiled x then raise 5 va
  modify fun s => (s.touch x.pa hint false).useHostPage x.pa
  checkTag agent x.pa false va
  return (← get).readPA x.pa n

/-- A plain write of `n` bytes at a translated address: the sector is tagged with its writer; a write of a part of a
poisoned sector raises cause 7 (R282, R376), before its tag is checked (DESIGN CHOICE, log entry 86). -/
def writeAt (agent : Nat) (x : Xlated) (va : Word) (n v : Nat) (hint : LineClass) : Exec Unit := do
  checkHostPage .store x.pa va
  let whole := n = 32 && x.pa % 32 = 0
  if (← get).spoiled x && !whole then raise 7 va
  modify fun s => (s.touch x.pa hint true).useHostPage x.pa
  checkTag agent x.pa true va
  modify fun s =>
    let s := (s.dirtyPage (some agent) x).writePA x.pa n v
    let s := if whole then s.mapMem (MemState.heal x.pa) else s
    let s := if isHost x.pa then s else s.mapMem (MemState.tag x.pa agent (s.agentPhase agent))
    s.breakReservations (some agent) x.pa

/-- The atomic operations a host page with Y = 1 sends to the host (R290). -/
inductive AtomicKind where
  | fetchAdd | swap | other | reserve
deriving DecidableEq, Repr

/-- An atomic on a host page with Y = 1 that cannot be sent as a PCIe AtomicOp raises cause 7, or 5 for a
reservation (R290). -/
def checkHostAtomic (kind : AtomicKind) (n : Nat) (x : Xlated) (va : Word) : Exec Unit :=
  if isHost x.pa && x.system then
    match kind with
    | .reserve => raise 5 va
    | .other => raise 7 va
    | _ => if n = 4 || n = 8 then pure () else raise 7 va
  else pure ()

/-- One bank operation: reads `n` bytes and writes what `f` gives; the sector becomes untagged where it wrote
(R282, R291). At poison it raises cause 5, or the given one where it only writes (R189, R376). Returns the old value. -/
def atomicAt (agent : Nat) (x : Xlated) (va : Word) (n : Nat) (f : Nat → Option Nat) (spoilt : Nat := 5) : Exec Nat := do
  checkHostPage .store x.pa va
  if (← get).spoiled x then raise spoilt va
  modify fun s => (s.touch x.pa .normal true).useHostPage x.pa
  checkTag agent x.pa true va
  let now ← get
  let old := if x.discarded then 0 else now.readPA x.pa n
  match f old with
  | none => return old
  | some v =>
    modify fun s =>
      (((s.dirtyPage (some agent) x).writePA x.pa n v).mapMem (MemState.untag x.pa)).breakReservations (some agent) x.pa
    return old

/-- A line of the data cache holds an address. -/
def Core.dataLine (c : Core) (pa : Nat) : Option CacheLine := c.dcache.find? fun l => l.line = pa / 128

/-- Drops one line of the data cache (R56, R62). -/
def Core.dropData (pa : Nat) (c : Core) : Core := { c with dcache := c.dcache.filter fun l => l.line ≠ pa / 128 }

/-- The set of a line in a control thread's cache: 128 sets of four lines (R55; log entry 12). -/
def cacheSet (line : Nat) : Nat := line % 128

/-- The lines of a cache that share a line's set with it. -/
def setOf (line : Nat) (l : List CacheLine) : List CacheLine :=
  l.filter fun k => k.line ≠ line && cacheSet k.line = cacheSet line

/-- A cache once a line is filled (R55): in a full set it replaces the line that a choice names. -/
def fillCache (new : CacheLine) (choice : Nat) (l : List CacheLine) : List CacheLine :=
  let out := if 4 ≤ (setOf new.line l).length then (setOf new.line l)[choice % 4]?.map (·.line) else none
  new :: l.filter fun k => k.line ≠ new.line && some k.line ≠ out

/-- The line of an address as a fill reads it (R55, R376). -/
def State.lineAt (s : State) (pa : Nat) : CacheLine :=
  let base := canonical pa / 128 * 128
  ⟨pa / 128, s.mem.bytes.slice base 128, s.mem.poison.filter fun p => p / 4 = base / 128⟩

/-- The line to replace in a full set is a free choice (R55; log entry 12). -/
def State.chooseLine (line : Nat) (l : List CacheLine) (s : State) : Nat × State :=
  if 4 ≤ (setOf line l).length then s.draw else (0, s)

/-- Fills the data cache with the line of an address (R55). -/
def State.fillData (pa : Nat) (s : State) : State :=
  let (k, t) := s.chooseLine (pa / 128) s.core.dcache
  t.mapCore fun c => { c with dcache := fillCache (s.lineAt pa) k c.dcache }

/-- A line serves an access: it holds the access's sector (R376). -/
def CacheLine.serves (pa : Nat) (l : CacheLine) : Bool := !l.holes.contains (canonical pa / 32)

/-- A scalar load (R55, R56): served from the data cache, or after a fill, at which its sector's tag is checked. -/
def scalarLoad (va : Word) (n : Nat) : Exec Nat := do
  if va.toNat % n ≠ 0 then raise 4 va
  let x ← translate (← get).dataSpace .load .none va
  if x.discarded then return 0
  match ((← get).core.dataLine x.pa).filter (CacheLine.serves x.pa) with
  | some l => return l.data.read (canonical x.pa) n
  | none =>
    let v ← readAt (← get).core.id x va n .normal
    modify (State.fillData x.pa)
    return v

/-- A scalar store (R55, R60): written through, and a line of the data cache that it hits is updated. -/
def scalarStore (va : Word) (n v : Nat) : Exec Unit := do
  if va.toNat % n ≠ 0 then raise 6 va
  let x ← translate (← get).dataSpace .store .none va
  writeAt (← get).core.id x va n v .normal
  modify (State.mapCore fun c =>
    { c with dcache := c.dcache.map fun l =>
        if l.line = x.pa / 128 then { l with data := l.data.write (canonical x.pa) n v } else l })

/-- A scalar atomic at its home bank, bypassing the data cache (R62, R290, R306). -/
def scalarAtomic (kind : AtomicKind) (va : Word) (n : Nat) (f : Nat → Option Nat) : Exec Nat := do
  if va.toNat % n ≠ 0 then raise 6 va
  let x ← translate (← get).dataSpace .store .none va
  checkHostAtomic kind n x va
  modify (State.mapCore (Core.dropData x.pa))
  atomicAt (← get).core.id x va n f

/-- The line of an address through the instruction cache (R54, R55): a miss fills it, and a line of host memory needs its
translation (R384); a discarded page reads zero. A poisoned sector is delivered as it stands (DESIGN CHOICE, log entry 70). -/
def instrLine (x : Xlated) (va : Word) : Exec ByteMap := do
  if x.discarded then return []
  let s ← get
  match s.core.icache.find? fun l => l.line = x.pa / 128 with
  | some l => return l.data
  | none =>
    checkHostPage .fetch x.pa va
    let s := (s.touch x.pa .normal false).useHostPage x.pa
    let new := s.lineAt x.pa
    let (k, s) := s.chooseLine new.line s.core.icache
    set (s.mapCore fun c => { c with icache := fillCache new k c.icache })
    return new.data

/-- The check of an atomic that does not write: its line is filled, so that a tag in the spill table counts, and its sector's tag
is checked as for a write (R282, R284, R306). A conflict that it finds is recorded with ACC 1, as the write it attempted, though
it neither read nor wrote (R286; DESIGN CHOICE, log entry 34). -/
def checkUnwritten (agent pa : Nat) (va : Word) : Exec Unit := do
  modify (State.touch pa .normal false)
  checkTag agent pa true va

/-- The word at an address (R54, R55). -/
def fetchWord (va : Word) : Exec Word32 := do
  let x ← translate (← get).fetchSpace .fetch .none va
  let data ← instrLine x va
  return BitVec.ofNat 32 (data.read (canonical x.pa) 4)

/-! ### Releases and acquires -/

/-- A release at cluster scope or wider waits until 40 station ticks have passed since the core's last phase bump (R277). -/
def awaitRelease (scope : Nat) : Exec Unit := do
  let s ← get
  let soon := match s.core.lastBump with | some t => s.tick < t + 40 | none => false
  waitUntil (scope = 0 || !soon)

/-- The core's phase is bumped (R277). -/
def State.bumpPhase (s : State) : State :=
  s.mapCore fun c => { c with phase := c.phase + 1, lastBump := some s.tick }

/-- A release at a scope (R277): at cluster scope or wider it bumps the core's phase, at most once in 40 station
ticks. Earlier accesses are performed as they issue in this model (log entry 18). -/
def release (scope : Nat) : Exec Unit := do
  awaitRelease scope
  if scope ≠ 0 then modify State.bumpPhase

/-- An acquire invalidates the core's data cache (R56, R277). -/
def acquire : Exec Unit := modify State.invalidateData

/-- A fence (R61, R276, R296) over predecessor and successor sets with I in bit 3, O in bit 2, R in bit 1 and W in
bit 0: no operation where a set is empty; a release for W or O before it; an acquire for R or I after it. -/
def fenceOp (pred succ : BitVec 4) (scope : Nat) : Exec Unit := do
  if pred = 0 || succ = 0 then return
  if pred &&& 5 ≠ 0 then release scope
  if succ &&& 10 ≠ 0 then acquire

end Sys2Proof.Machine
end

