-- ==== Sys2Proof/Machine/Cast.lean ====
section
/-! DEFINITION. Fatal errors and the cast (16_device_service R380), and what the device itself writes to host memory. -/

namespace Sys2Proof.Machine

/-- The physical address of a host address (R176). -/
def hostPa (a : Nat) : Nat := 2 ^ 49 + a % 2 ^ 48

/-- Host memory that the device itself reads or writes, with no tag and no reservation in it (R281). -/
def State.putHost (a : Nat) (bytes : List Byte) (s : State) : State :=
  s.mapMem fun m => { m with bytes := m.bytes.writeBytes (hostPa a) bytes }

/-- Copies a map of bytes into host memory: all of [0, n) of it. -/
def State.putHostMap (a n : Nat) (src : ByteMap) (s : State) : State :=
  s.mapMem fun m => { m with bytes :=
    (src.filter fun c => c.1 < n).foldl (fun b c => b.set (hostPa a + c.1) c.2) (m.bytes.clear (hostPa a) n) }

/-- `n` bytes of free values (log entry 15). -/
def State.freeBytes (n : Nat) (s : State) : List Byte × State :=
  (((List.range ((n + 7) / 8)).flatMap fun i => leBytes 8 (Config.freeWord (s.free + i)).toNat).take n,
    { s with free := s.free + (n + 7) / 8 })

/-- The code of a service state (R382). -/
def ServiceState.code : ServiceState → Nat
  | .awaitImage => 1
  | .verifying => 2
  | .training => 3
  | .maquette => 4
  | .full => 5
  | .refused => 6
  | .fatal => 7

/-- MSTATUS of the physical function (R382). -/
def DeviceState.mstatus (d : DeviceState) : Word := BitVec.ofNat 64
  (d.service.code + d.reason.toNat * 2 ^ 8 + d.diesok.toNat * 2 ^ 16 + (if d.marom then 2 ^ 40 else 0))

/-- The least CASTLEN for a whole cast (R380). -/
def castBytes : Nat := 5 * 2 ^ 28

/-- The log rings of the dies, copied to host memory from `a` on (R380). -/
def State.castRings (a : Nat) (s : State) : State :=
  let ring (d : Nat) : ByteMap :=
    let base := (s.die d).logBase
    if base = 0 then [] else (s.mem.bytes.slice base 16448).map fun c => (c.1 - base, c.2)
  (List.range 24).foldl (fun t d => t.putHostMap (a + 16448 * d) 16448 (ring d)) s

/-- The sidings of the cores, copied to host memory from `a` on (R380). -/
def State.castSidings (a : Nat) (s : State) : State :=
  (List.range coreCount).foldl (fun t c => t.putHostMap (a + 524288 * c) 524288 (s.coreOf c).siding.image) s

/-- `n` free values as bytes in host memory from `a` on (log entry 15). -/
def State.castFree (a n : Nat) (s : State) : State := (s.freeBytes n).2.putHost a (s.freeBytes n).1

/-- The parts of the cast after its header (R380): the rings, the CSR images, whose layout is not given, and the sidings. -/
def State.castBody (s : State) : State :=
  let a := s.dev.castaddr.toNat + 4096
  ((s.castRings a).castFree (a + 394752) (2304 * 8192)).castSidings (a + 394752 + 2304 * 8192)

/-- The cast (R380): what its header holds, of which no layout is given, so its bytes are free values (log entry 15); and
the rest where CASTLEN leaves room. -/
def State.writeCast (cause : FatalCause) (s : State) : State :=
  let t := s.castFree s.dev.castaddr.toNat 4096
  let held : Cast := ⟨cause, s.tick, s.dev.mstatus, (List.range coreCount).map fun c => (s.coreOf c).vec.laneMap⟩
  let t := { t with dev := { t.dev with cast := some held } }
  if castBytes ≤ s.dev.castlen.toNat then t.castBody else t

/-- A fatal error (R380): every core stops without saving, the cast is written, and STATE is Fatal. -/
def State.fatal (cause : FatalCause) (s : State) : State :=
  let s := (s.mapCores fun c => { c with run := .halted }).writeCast cause
  { s with dev := { s.dev with service := .fatal } }

end Sys2Proof.Machine
end

