-- ==== Sys2Proof/Machine/Ops.lean ====
section
/-! DEFINITION. Taking an exception and returning from one (14_system_traps R328 to R334, R352), interrupts (R332),
and how a meaning becomes a step: it retires, takes its trap, or waits. -/

namespace Sys2Proof.Machine

/-- The privilege a field of mstatus names. -/
def privOf (v : Nat) : Priv := match v with | 0 => .user | 1 => .supervisor | _ => .machine

/-- The two-bit code of a privilege mode. -/
def Priv.code : Priv → Nat
  | .user => 0
  | .supervisor => 1
  | .machine => 3

/-- Where a trap vector sends a trap: BASE, or BASE + 4 × cause for an interrupt in vectored mode. -/
def vectorTarget (tvec : Word) (interrupt : Bool) (cause : Nat) : Word :=
  let base := setField tvec 0 2 0
  if interrupt && field tvec 0 2 == 1 then base + BitVec.ofNat 64 (4 * cause) else base

/-- The value of scause or mcause: the interrupt bit and the code. -/
def causeWord (interrupt : Bool) (cause : Nat) : Word := setBit (BitVec.ofNat 64 cause) 63 interrupt

/-- DEPTH after an entry into supervisor mode (R334): 1 from user mode, one more from supervisor mode. -/
def depthAfter (from_ : Priv) (d : BitVec 3) : BitVec 3 :=
  if from_ = .user then 1 else if d = 7 then 7 else d + 1

/-- Trap entry into supervisor mode: sepc, scause and stval are written, SPIE := SIE, SIE := 0, SPP := the mode left,
and execution continues at stvec; DEPTH counts the entry (R334). -/
def State.enterSupervisor (interrupt : Bool) (cause : Nat) (tval : Word) (s : State) : State :=
  s.leaveContext.mapCore fun c =>
    let m := c.csr.mstatus
    { c with
      priv := .supervisor
      pc := vectorTarget c.csr.stvec interrupt cause
      stopAt := none
      csr := { c.csr with
        sepc := c.pc, scause := causeWord interrupt cause, stval := tval
        mstatus := setBit (setBit (setBit m 5 (bit m 1)) 1 false) 8 (c.priv ≠ .user)
        trapDepth := depthAfter c.priv c.csr.trapDepth } }

/-- Trap entry into machine mode: mepc, mcause and mtval are written, MPIE := MIE, MIE := 0, MPP := the mode left, and
execution continues at mtvec. -/
def State.enterMachine (interrupt : Bool) (cause : Nat) (tval : Word) (s : State) : State :=
  s.leaveContext.mapCore fun c =>
    let m := c.csr.mstatus
    { c with
      priv := .machine
      pc := vectorTarget c.csr.mtvec interrupt cause
      stopAt := none
      csr := { c.csr with
        mepc := c.pc, mcause := causeWord interrupt cause, mtval := tval
        mstatus := setField (setBit (setBit m 7 (bit m 3)) 3 false) 11 2 c.priv.code } }

/-- The causes that `trapset` may redirect (R352). -/
def eligibleCauses : List Nat := [26, 27, 28, 29, 31, 49, 50, 53]

/-- A synchronous exception is redirected to the continuation's own handler (R352). -/
def State.redirects (s : State) (cause : Nat) : Bool :=
  s.core.priv == .user && eligibleCauses.contains cause && bit s.core.redirect.mask cause && !s.core.redirect.active

/-- The store of a redirect: the program counter, the cause and the value at block offsets 8 to 31 (R352). -/
def storeRedirect (cause : Nat) (tval : Word) : Exec Unit := do
  let c := (← get).core
  let b := c.redirect.block
  scalarStore (b + 8) 8 c.pc.toNat
  scalarStore (b + 16) 8 cause
  scalarStore (b + 24) 8 tval.toNat

/-- A redirect once its store is made: ACTIVE := 1, the data cache and the reservation go, and execution continues at
HANDLER in user mode (R352). -/
def State.enterHandler (s : State) : State :=
  s.leaveContext.mapCore fun c =>
    { c with pc := c.redirect.handler, stopAt := none, redirect := { c.redirect with active := true } }

/-- A trap goes to supervisor mode: it was raised below machine mode and is delegated, and it is not a synchronous
exception, which cause 52 is not (R331), raised in supervisor mode at the nesting limit (R328, R334). -/
def State.delegates (s : State) (interrupt : Bool) (cause : Nat) : Bool :=
  s.core.priv != .machine && bit (if interrupt then s.core.csr.mideleg else s.core.csr.medeleg) cause &&
    (interrupt || cause == 52 || s.core.priv == .user || s.core.csr.trapDepth != s.core.csr.trapLimit)

/-- A delegated synchronous exception, which cause 52 is not (R331), is raised in supervisor mode at the nesting limit
(R334). -/
def State.overNested (s : State) (interrupt : Bool) (cause : Nat) : Bool :=
  !interrupt && cause != 52 && s.core.priv == .supervisor && bit s.core.csr.medeleg cause &&
    s.core.csr.trapDepth == s.core.csr.trapLimit

/-- The entry into the mode that takes a trap; one past the nesting limit is fatal (R334, R380). -/
def State.enter (interrupt : Bool) (cause : Nat) (tval : Word) (s : State) : State :=
  if s.delegates interrupt cause then s.enterSupervisor interrupt cause tval
  else if s.overNested interrupt cause then (s.enterMachine interrupt cause tval).fatal (.machineTrap s.core.id)
  else s.enterMachine interrupt cause tval

/-- Takes a synchronous exception (R331, R333, R334, R352): the loads before it have landed; it is redirected where
`trapset` asks for that and the store succeeds, and otherwise delegated or taken in machine mode. -/
def State.takeTrap (cause : Nat) (tval : Word) (s : State) : State :=
  let s := s.landAll
  if s.redirects cause then
    match storeRedirect cause tval s with
    | .ok _ s' => s'.enterHandler
    | .error _ _ => s.enter false cause tval
  else s.enter false cause tval

/-- The order of precedence of machine-level interrupts, then of those for supervisor mode (R332). -/
def interruptOrder : List Nat := [11, 3, 7, 16, 19, 9, 1, 5, 18, 17]

/-- Interrupts that are pending and enabled, and taken in the mode now in force (R332, R333): machine-level ones below
machine mode or under MIE; delegated ones in user mode, or in supervisor mode under SIE. -/
def State.enabledInterrupt (s : State) : Option Nat :=
  let c := s.core.csr
  let pend (n : Nat) : Bool := bit c.mip n && bit c.mie n
  let toM (n : Nat) : Bool := pend n && !bit c.mideleg n && (s.core.priv != .machine || bit c.mstatus 3)
  let toS (n : Nat) : Bool := pend n && bit c.mideleg n &&
    (s.core.priv == .user || (s.core.priv == .supervisor && bit c.mstatus 1))
  (interruptOrder.find? toM).orElse fun _ => interruptOrder.find? toS

/-- stval of an interrupt: what interrupt 16 asks for, else 0 (R332). -/
def State.interruptValue (s : State) (n : Nat) : Word := if n = 16 then BitVec.ofNat 64 s.core.stopCause else 0

/-- Takes an interrupt at an interruptible point (R333, R334). -/
def State.takeInterrupt (n : Nat) (s : State) : State :=
  let s := s.landAll
  s.enter true n (s.interruptValue n)

/-- Return to the mode SPP names (R334): SIE := SPIE, SPIE := 1, SPP := user; DEPTH falls, and stays 0 where a return to supervisor
mode finds it so (DESIGN CHOICE, log entry 27); the data cache and the scalar reservation go. -/
def State.returnSupervisor (s : State) : State :=
  let m := s.core.csr.mstatus
  let target : Priv := if bit m 8 then .supervisor else .user
  s.leaveContext.mapCore fun c =>
    { c with
      priv := target
      pc := c.csr.sepc
      csr := { c.csr with
        mstatus := setBit (setBit (setBit (setBit m 1 (bit m 5)) 5 true) 8 false) 17 false
        trapDepth := if target = .user then 0 else if c.csr.trapDepth = 0 then 0 else c.csr.trapDepth - 1 } }

/-- Return to the mode MPP names: MIE := MPIE, MPIE := 1, MPP := user, MPRV := 0 below machine mode; the data cache
and the reservation go (R353). -/
def State.returnMachine (s : State) : State :=
  let m := s.core.csr.mstatus
  let target := privOf (field m 11 2)
  let m1 := setField (setBit (setBit m 3 (bit m 7)) 7 true) 11 2 0
  s.leaveContext.mapCore fun c =>
    { c with
      priv := target
      pc := c.csr.mepc
      csr := { c.csr with mstatus := if target = .machine then m1 else setBit m1 17 false } }

/-- What an operation of the core in focus comes to: its next state, with its trap taken, or the state as it stands
where it waits. -/
def settle : EStateM.Result Stop State Unit → State
  | .ok _ s => s
  | .error (.trap c t) s => s.takeTrap c t
  | .error .wait s => s

/-- The step of an instruction that sets the program counter itself. -/
def execute (m : Exec Unit) (s : State) : Host.Outcome State Fault Refusal := .next (settle (m s))

/-- The step of an instruction that retires and continues at the next word. -/
def retiring (m : Exec Unit) : State → Host.Outcome State Fault Refusal :=
  execute do
    m
    modify State.retire

/-- The step of an instruction that writes an integer register and has no other effect. -/
def writing (rd : BitVec 5) (v : Word) (s : State) : Host.Outcome State Fault Refusal :=
  .next (s.setX rd v).retire

/-- Runs an operation for another agent than the control thread: its stop has no effect beyond the state it left. -/
def State.after (m : Exec α) (s : State) : State :=
  match m s with
  | .ok _ s' => s'
  | .error _ s' => s'

/-- Requires supervisor or machine mode, else cause 2 (R348). -/
def privileged : Exec Unit := do require ((← get).core.priv ≠ .user)

end Sys2Proof.Machine
end

