-- ==== Sys2Proof/Machine/Flags.lean ====
section
/-! DEFINITION. The exception flags of floating point: NV, DZ, OF, UF and NX (06_vector_float R139, 03_control_thread
R60 item 8), and the two registers that accumulate them. The flags are sticky. -/

namespace Sys2Proof.Machine

/-- A set of exception flags, laid out as kvfflags and fflags lay them out (R139). -/
abbrev Flags := BitVec 5

/-- Inexact. -/
def flagNX : Flags := 1
/-- Underflow: tiny after rounding and inexact (R137). -/
def flagUF : Flags := 2
/-- Overflow (R138). -/
def flagOF : Flags := 4
/-- An exact infinite result from finite operands. -/
def flagDZ : Flags := 8
/-- Invalid operation. -/
def flagNV : Flags := 16

/-- A flag where a condition holds. -/
def flagIf (b : Bool) (f : Flags) : Flags := if b then f else 0

/-- Accumulates flags into kvfflags (R139). -/
def State.raiseVector (f : Flags) (s : State) : State := s.mapVec fun v => { v with kvfflags := v.kvfflags ||| f }

/-- Accumulates flags into fflags; FS becomes Dirty where a flag is set (R60 item 8). -/
def State.raiseScalar (f : Flags) (s : State) : State :=
  if f = 0 then s else
  s.mapCore fun c => { c with fflags := c.fflags ||| f,
                              csr := { c.csr with mstatus := setField c.csr.mstatus 13 2 3 } }

end Sys2Proof.Machine
end

