-- ==== Sys2Proof/Machine/Float.lean ====
section
/-! DEFINITION. Floating-point arithmetic (06_vector_float R134 to R138, R146 to R150; 07_narrow_formats R155, R162,
R163, R169): values are exact (a sign, an integer and a power of two, an infinity, or a NaN), and one function rounds. -/

namespace Sys2Proof.Machine

/-- A floating-point format (R135, R155): the exponent and fraction widths, the bias, and the code of the largest
finite magnitude; codes above it are the infinity (where the format has one) and NaNs. -/
structure Format where
  ebits : Nat
  mbits : Nat
  bias : Nat
  maxCode : Nat
  hasInf : Bool
deriving DecidableEq, Repr

/-- FP32 (R135). -/
def fp32 : Format := ⟨8, 23, 127, 0x7F7FFFFF, true⟩
/-- FP16 (R135). -/
def fp16 : Format := ⟨5, 10, 15, 0x7BFF, true⟩
/-- BF16 (R135). -/
def bf16 : Format := ⟨8, 7, 127, 0x7F7F, true⟩
/-- E4M3 (R155). -/
def e4m3 : Format := ⟨4, 3, 7, 0x7E, false⟩
/-- E5M2 (R155). -/
def e5m2 : Format := ⟨5, 2, 15, 0x7B, true⟩
/-- E2M1 (R155): neither infinity nor NaN. -/
def e2m1 : Format := ⟨2, 1, 1, 7, false⟩

/-- The bits below the sign. -/
def Format.magBits (f : Format) : Nat := f.ebits + f.mbits
/-- The width of a code. -/
def Format.width (f : Format) : Nat := f.magBits + 1
/-- The precision in bits. -/
def Format.prec (f : Format) : Nat := f.mbits + 1
/-- The exponent of the smallest subnormal. -/
def Format.emin (f : Format) : Int := 1 - (f.bias : Int) - (f.mbits : Int)
/-- The sign bit of a code. -/
def Format.sign (f : Format) (neg : Bool) : Nat := if neg then 2 ^ f.magBits else 0
/-- The code of an infinity of a sign; the largest finite value in a format that has none (R138, R169). -/
def Format.infinity (f : Format) (neg : Bool) : Nat :=
  f.sign neg + if f.hasInf then f.maxCode + 1 else f.maxCode
/-- The code of the largest finite value of a sign. -/
def Format.largest (f : Format) (neg : Bool) : Nat := f.sign neg + f.maxCode
/-- The canonical NaN (R135, R155). E2M1 has no NaN: +0 stands for it (R169). -/
def Format.qnan (f : Format) : Nat :=
  if f.hasInf then f.maxCode + 1 + 2 ^ (f.mbits - 1)
  else if f.maxCode + 1 < 2 ^ f.magBits then f.maxCode + 1 else 0

/-- The value of a code: a NaN, an infinity, or (−1)^neg × m × 2^e. -/
inductive FVal where
  | nan (signalling : Bool)
  | inf (neg : Bool)
  | fin (neg : Bool) (m : Nat) (e : Int)
deriving DecidableEq, Repr

/-- The value of a code in a format (R135, R155). -/
def Format.value (f : Format) (code : Nat) : FVal :=
  let neg := code.testBit f.magBits
  let mag := code % 2 ^ f.magBits
  let m := mag % 2 ^ f.mbits
  let x := mag / 2 ^ f.mbits
  if f.maxCode < mag then
    (if f.hasInf && mag == f.maxCode + 1 then .inf neg else .nan (f.hasInf && !mag.testBit (f.mbits - 1)))
  else if x = 0 then .fin neg m f.emin
  else .fin neg (m + 2 ^ f.mbits) (f.emin + (x - 1 : Nat))

/-- The value is a NaN. -/
def FVal.isNan : FVal → Bool
  | .nan _ => true
  | _ => false
/-- The value is a signalling NaN. -/
def FVal.isSnan : FVal → Bool
  | .nan s => s
  | _ => false
/-- The value is an infinity. -/
def FVal.isInf : FVal → Bool
  | .inf _ => true
  | _ => false
/-- The value is a zero. -/
def FVal.isZero : FVal → Bool
  | .fin _ m _ => m == 0
  | _ => false
/-- The sign. -/
def FVal.neg : FVal → Bool
  | .nan _ => false
  | .inf n => n
  | .fin n _ _ => n
/-- The value with its sign inverted where a condition holds. -/
def FVal.negIf (b : Bool) : FVal → FVal
  | .nan s => .nan s
  | .inf n => .inf (n != b)
  | .fin n m e => .fin (n != b) m e

/-! ### Rounding -/

/-- How a result is rounded (R138, R163): the five modes of FRM, and stochastic with its random value. -/
inductive Rounding where
  | rne | rtz | rdn | rup | rmm
  | sr (r : Nat)
deriving DecidableEq, Repr

/-- Stochastic rounding (R163). -/
def Rounding.isStochastic : Rounding → Bool
  | .sr _ => true
  | _ => false

/-- The rounding mode a code of FRM names; codes 101 to 111 name none and are not reachable (log entry 19). -/
def Rounding.ofCode (c : BitVec 3) : Rounding :=
  match c with
  | 1 => .rtz
  | 2 => .rdn
  | 3 => .rup
  | 4 => .rmm
  | _ => .rne

/-- An exact magnitude m × 2^e; with `sticky`, a value strictly between it and (m + 1) × 2^e. -/
structure Magnitude where
  m : Nat
  e : Int
  sticky : Bool
deriving DecidableEq, Repr

/-- A magnitude rounded to a multiple of 2^q: the multiple, and whether it is inexact (R138, R163). -/
def roundTo (r : Rounding) (neg : Bool) (x : Magnitude) (q : Int) : Nat × Bool :=
  if q ≤ x.e then (x.m * 2 ^ (x.e - q).toNat, x.sticky)
  else
    let s := (q - x.e).toNat
    let n := x.m / 2 ^ s
    let rem := x.m % 2 ^ s
    let twice := 2 * rem
    let inexact := rem != 0 || x.sticky
    let above := 2 ^ s < twice || (twice == 2 ^ s && x.sticky)
    let tie := twice == 2 ^ s && !x.sticky
    let up := match r with
      | .rne => above || (tie && n % 2 == 1)
      | .rtz => false
      | .rdn => neg && inexact
      | .rup => !neg && inexact
      | .rmm => above || tie
      | .sr v => decide (65536 ≤ rem * 65536 / 2 ^ s + v)
    (if up then n + 1 else n, inexact)

/-- How many bits a number has. -/
def bitLength (n : Nat) : Nat := if n = 0 then 0 else n.log2 + 1

/-- An overflow goes to the infinity, or stays at the largest finite value (R138). -/
def overflowsToInf (r : Rounding) (neg : Bool) : Bool :=
  match r with
  | .rne | .rmm => true
  | .rtz | .sr _ => false
  | .rdn => neg
  | .rup => !neg

/-- The magnitude code of n × 2^q, where n has the format's precision or q is its smallest exponent. -/
def Format.pack (f : Format) (n : Nat) (q : Int) : Nat :=
  if n < 2 ^ f.mbits then n else ((q - f.emin).toNat + 1) * 2 ^ f.mbits + (n - 2 ^ f.mbits)

/-- A rounding overflows: beyond the largest finite value, or, where it is stochastic, between that and the next
value (R138, R163). -/
def Format.overflows (f : Format) (r : Rounding) (neg : Bool) (x : Magnitude) (q : Int) : Bool :=
  let (n, inexact) := roundTo (match r with | .sr _ => .rtz | r => r) neg x q
  let code := f.pack n q
  let stochastic := match r with | .sr _ => true | _ => false
  f.maxCode < code || (stochastic && code == f.maxCode && inexact)

/-- A magnitude rounds below the smallest normal with the exponent range unbounded (R137). -/
def Format.tiny (f : Format) (r : Rounding) (neg : Bool) (x : Magnitude) (q : Int) : Bool :=
  q < f.emin && decide (bitLength (roundTo r neg x q).1 + q ≤ f.emin + f.mbits)

/-- A non-zero magnitude rounded once to a format, and the flags it raises (R137, R138, R163). -/
def Format.round (f : Format) (r : Rounding) (neg : Bool) (x : Magnitude) : Nat × Flags :=
  let q0 : Int := bitLength x.m + x.e - f.prec
  let q := max q0 f.emin
  if f.overflows r neg x q then
    (if f.hasInf && overflowsToInf r neg then f.infinity neg else f.largest neg, flagOF ||| flagNX)
  else
    let (n, inexact) := roundTo r neg x q
    (f.sign neg + f.pack n q, flagIf inexact flagNX ||| flagIf (inexact && f.tiny r neg x q0) flagUF)

/-- The code of a zero. -/
def Format.zero (f : Format) (neg : Bool) : Nat := f.sign neg

/-- An exact value rounded to a format: `rnd` of R138; a zero keeps its sign. -/
def Format.rnd (f : Format) (r : Rounding) : FVal → Nat × Flags
  | .nan s => (f.qnan, flagIf s flagNV)
  | .inf n => (f.infinity n, 0)
  | .fin n m e => if m = 0 then (f.zero n, 0) else f.round r n ⟨m, e, false⟩

/-! ### Sums and products -/

/-- The integer a finite value is at an exponent no larger than its own. -/
def scaled (x : FVal) (e0 : Int) : Int :=
  match x with
  | .fin n m e => let v : Int := m * 2 ^ (e - e0).toNat; if n then -v else v
  | _ => 0

/-- The exponent of a finite value. -/
def FVal.exp : FVal → Int
  | .fin _ _ e => e
  | _ => 0

/-- The smallest exponent of a list of values. -/
def minExp : List FVal → Int
  | [] => 0
  | [x] => x.exp
  | x :: xs => min x.exp (minExp xs)

/-- The sign of an exact zero sum (R146, R230): that of the terms where all are zeros of one sign, else minus under RDN
and plus otherwise. -/
def zeroSign (r : Rounding) (terms : List FVal) : Bool :=
  if terms.all fun t => t.isZero && t.neg then true
  else if terms.all fun t => t.isZero && !t.neg then false
  else r == .rdn

/-- The exact sum of a list of terms, rounded once (R146, R147, R175, R230): a NaN gives the canonical NaN, with NV where one
is signalling; infinities of opposite sign give it with NV, whatever the other terms are. `nv` says that forming the terms was
itself invalid. -/
def Format.sum (f : Format) (r : Rounding) (terms : List FVal) (nv : Bool := false) : Nat × Flags :=
  let pos := terms.any fun t => t == .inf false
  let neg := terms.any fun t => t == .inf true
  if nv || terms.any FVal.isSnan || (pos && neg) then (f.qnan, flagNV)
  else if terms.any FVal.isNan then (f.qnan, 0)
  else if pos || neg then (f.infinity neg, 0)
  else
    let e0 := minExp terms
    let total := terms.foldl (fun a t => a + scaled t e0) 0
    if total = 0 then (f.zero (zeroSign r terms), 0)
    else f.round r (total < 0) ⟨total.natAbs, e0, false⟩

/-- The exact product of two values; none where it is 0 × ∞ (R146, R147). -/
def FVal.times (a b : FVal) : Option FVal :=
  match a, b with
  | .nan s, .nan t => some (.nan (s || t))
  | .nan s, _ => some (.nan s)
  | _, .nan t => some (.nan t)
  | .inf n, b => if b.isZero then none else some (.inf (n != b.neg))
  | a, .inf n => if a.isZero then none else some (.inf (n != a.neg))
  | .fin n m e, .fin n' m' e' => some (.fin (n != n') (m * m') (e + e'))

/-- ±(a × b) ± d with one rounding (R147). -/
def Format.fma (f : Format) (r : Rounding) (negProduct negAddend : Bool) (a b d : FVal) : Nat × Flags :=
  match a.times b with
  | none => (f.qnan, flagNV)
  | some p => f.sum r [p.negIf negProduct, d.negIf negAddend]

/-- a + b (R146). -/
def Format.add (f : Format) (r : Rounding) (a b : FVal) : Nat × Flags := f.sum r [a, b]

/-- a − b (R146). -/
def Format.sub (f : Format) (r : Rounding) (a b : FVal) : Nat × Flags := f.sum r [a, b.negIf true]

/-- a × b (R146). -/
def Format.mul (f : Format) (r : Rounding) (a b : FVal) : Nat × Flags :=
  match a.times b with
  | none => (f.qnan, flagNV)
  | some p => f.rnd r p

/-- a / b (R146). -/
def Format.div (f : Format) (r : Rounding) (a b : FVal) : Nat × Flags :=
  let neg := a.neg != b.neg
  if a.isNan || b.isNan then (f.qnan, flagIf (a.isSnan || b.isSnan) flagNV)
  else match a, b with
    | .inf _, .inf _ => (f.qnan, flagNV)
    | .inf _, _ => (f.infinity neg, 0)
    | _, .inf _ => (f.zero neg, 0)
    | .fin _ m e, .fin _ m' e' =>
      if m' = 0 then (if m = 0 then (f.qnan, flagNV) else (f.infinity neg, flagDZ))
      else if m = 0 then (f.zero neg, 0)
      else
        let n := m * 2 ^ 64
        f.round r neg ⟨n / m', e - e' - 64, n % m' != 0⟩
    | _, _ => (f.qnan, 0)

/-- The integer square root, one bit of the root at a time from bit `k − 1` down. -/
def isqrtFrom (n : Nat) : Nat → Nat → Nat
  | 0, root => root
  | k + 1, root => isqrtFrom n k (if (root + 2 ^ k) * (root + 2 ^ k) ≤ n then root + 2 ^ k else root)

/-- √x (R150). -/
def Format.sqrt (f : Format) (r : Rounding) (a : FVal) : Nat × Flags :=
  match a with
  | .nan s => (f.qnan, flagIf s flagNV)
  | .inf neg => if neg then (f.qnan, flagNV) else (f.infinity false, 0)
  | .fin neg m e =>
    if m = 0 then (f.zero neg, 0)
    else if neg then (f.qnan, flagNV)
    else
      -- an even exponent, and enough bits below the last place
      let shift : Nat := if e % 2 = 0 then 64 else 65
      let n := m * 2 ^ shift
      let root := isqrtFrom n 64 0
      f.round r false ⟨root, (e - shift) / 2, root * root != n⟩

/-- 1 / x (R150). -/
def Format.rcp (f : Format) (r : Rounding) (a : FVal) : Nat × Flags := f.div r (.fin false 1 0) a

/-! ### Powers of two and logarithms (log entry 20) -/

/-- The fraction bits of the working precision. -/
def workBits : Nat := 300

/-- ln 2 in the working precision: the sum of 1 / (k × 2^k). -/
def ln2Sum : Nat → Nat
  | 0 => 0
  | k + 1 => 2 ^ workBits / ((k + 1) * 2 ^ (k + 1)) + ln2Sum k

/-- ln 2 in the working precision. -/
def ln2 : Nat := ln2Sum workBits

/-- The terms of the exponential series from `term`, the k-th. -/
def expSeries (y : Nat) : Nat → Nat → Nat → Nat
  | 0, _, _ => 0
  | fuel + 1, k, term => term + expSeries y fuel (k + 1) (term * y / 2 ^ workBits / (k + 1))

/-- 2^x (R150): exact where x is an integer, else one rounding of the value between two neighbours at the working
precision. -/
def Format.exp2 (f : Format) (r : Rounding) (a : FVal) : Nat × Flags :=
  match a with
  | .nan s => (f.qnan, flagIf s flagNV)
  | .inf neg => if neg then (f.zero false, 0) else (f.infinity false, 0)
  | .fin neg m e =>
    if m = 0 then f.round r false ⟨1, 0, false⟩
    else
      -- beyond 2^9 every format under- or overflows alike
      let big := decide (9 < bitLength m + e)
      let x : Int := if big then 512 * 2 ^ workBits
        else if e ≤ -(workBits : Int) then 1 else m * 2 ^ (e + workBits).toNat
      let x := if neg then -x else x
      let whole := x / 2 ^ workBits
      let frac := (x % 2 ^ workBits).toNat
      if frac = 0 && !big then f.round r false ⟨1, whole, false⟩
      else
        let y := frac * ln2 / 2 ^ workBits
        f.round r false ⟨expSeries y 80 0 (2 ^ workBits), whole - workBits, true⟩

/-- The first `fuel` bits after the point of log2 of y / 2^workBits, for y in [1, 2), from the most significant. -/
def log2Bits : Nat → Nat → Nat → Nat
  | 0, _, acc => acc
  | fuel + 1, y, acc =>
    let y2 := y * y / 2 ^ workBits
    if 2 * 2 ^ workBits ≤ y2 then log2Bits fuel (y2 / 2) (2 * acc + 1) else log2Bits fuel y2 (2 * acc)

/-- log2 x, rounded towards zero (R150). -/
def Format.log2 (f : Format) (a : FVal) : Nat × Flags :=
  match a with
  | .nan s => (f.qnan, flagIf s flagNV)
  | .inf neg => if neg then (f.qnan, flagNV) else (f.infinity false, 0)
  | .fin neg m e =>
    if m = 0 then (f.infinity true, flagDZ)
    else if neg then (f.qnan, flagNV)
    else
      let k := bitLength m - 1
      let whole : Int := e + k
      if m = 2 ^ k then f.rnd .rtz (.fin (whole < 0) whole.natAbs 0)
      else
        let v : Int := whole * 2 ^ 128 + log2Bits 128 (m * 2 ^ workBits / 2 ^ k) 0
        if 0 ≤ v then f.round .rtz false ⟨v.toNat, -128, true⟩
        else f.round .rtz true ⟨(-v - 1).toNat, -128, true⟩

/-! ### Comparisons, bounds, classes, signs -/

/-- The order of two values that are no NaN: a below b (−0 and +0 are equal). -/
def FVal.less (a b : FVal) : Bool :=
  match a, b with
  | .inf n, .inf n' => n && !n'
  | .inf n, _ => n
  | _, .inf n => !n
  | a, b => let e0 := min a.exp b.exp; decide (scaled a e0 < scaled b e0)

/-- Two values that are no NaN are equal. -/
def FVal.same (a b : FVal) : Bool := !a.less b && !b.less a

/-- minimumNumber and maximumNumber on codes (R146): `a` is taken where it is the lesser (or greater), with −0 below
+0. -/
def Format.bound (f : Format) (greatest : Bool) (a b : Nat) : Nat × Flags :=
  let x := f.value a
  let y := f.value b
  let nv := flagIf (x.isSnan || y.isSnan) flagNV
  if x.isNan then (if y.isNan then f.qnan else b, nv)
  else if y.isNan then (a, nv)
  else
    let below := x.less y || (x.same y && x.neg && !y.neg)
    (if below == greatest then b else a, nv)

/-- The class of a code, one bit of ten (R150). -/
def Format.classOf (f : Format) (code : Nat) : Nat :=
  let normal := 2 ^ f.mbits ≤ code % 2 ^ f.magBits
  match f.value code with
  | .nan s => if s then 2 ^ 8 else 2 ^ 9
  | .inf n => if n then 2 ^ 0 else 2 ^ 7
  | .fin n m _ =>
    if m = 0 then (if n then 2 ^ 3 else 2 ^ 4)
    else if normal then (if n then 2 ^ 1 else 2 ^ 6)
    else if n then 2 ^ 2 else 2 ^ 5

/-- A code with its sign replaced (R148). -/
def Format.withSign (f : Format) (code : Nat) (neg : Bool) : Nat := code % 2 ^ f.magBits + f.sign neg

/-- The conditions of a floating-point compare (R149): the result and its flags. -/
def Format.compare (f : Format) (cc : Nat) (a b : Nat) : Bool × Flags :=
  let x := f.value a
  let y := f.value b
  let nan := x.isNan || y.isNan
  let quiet := flagIf (x.isSnan || y.isSnan) flagNV
  let loud := flagIf nan flagNV
  match cc with
  | 0 => (!nan && x.same y, quiet)
  | 1 => (nan || !x.same y, quiet)
  | 2 => (!nan && x.less y, loud)
  | 3 => (!nan && !y.less x, loud)
  | 4 => (!nan && y.less x, loud)
  | 5 => (!nan && !x.less y, loud)
  | 6 => (!nan, quiet)
  | _ => (nan, quiet)

/-! ### Integers -/

/-- A finite value rounded to an integer, and whether it is inexact. -/
def FVal.toInteger (r : Rounding) (x : FVal) : Int × Bool :=
  match x with
  | .fin n m e =>
    let (v, inexact) := roundTo r n ⟨m, e, false⟩ 0
    (if n then -(v : Int) else v, inexact)
  | _ => (0, false)

/-- The value of an integer. -/
def FVal.ofInt (v : Int) : FVal := .fin (v < 0) v.natAbs 0

end Sys2Proof.Machine
end

