-- ==== Sys2Proof/Machine/LaneOps.lean ====
section
/-! DEFINITION. What one lane computes for one element (05_vector_integer R116 to R123, 06_vector_float R146 to R151,
07_narrow_formats R162 and R168 to R169). The vector instructions apply these to every active element, and
micro-threads apply them with length one (11_microthreads R260). -/

namespace Sys2Proof.Machine

/-! ### Integers -/

/-- The single-width integer operations of kinds .vv, .vx and .vi (R116 to R120, R122). -/
inductive IntOp where
  | add | sub | rsub | minu | min | maxu | max | and | or | xor | sll | srl | sra | mul | mulh | macc | dot4
  | divu | div | remu | rem | saddu | sadd | ssubu | ssub
deriving DecidableEq, Repr

/-- Limits an integer to the signed range of a width (R117). -/
def clamp (w : Nat) (v : Int) : Nat :=
  let hi : Int := 2 ^ (w - 1)
  wrap w (if v < -hi then -hi else if hi ≤ v then hi - 1 else v)

/-- Limits an integer to the unsigned range of a width (R117). -/
def clampUnsigned (w : Nat) (v : Int) : Nat :=
  if v < 0 then 0 else if (2 ^ w : Int) ≤ v then 2 ^ w - 1 else v.toNat

/-- Byte k of a value, as a signed number. -/
def signedByte (v k : Nat) : Int := signed 8 (v / 256 ^ k)

/-- The sum of the products of four signed bytes (R122). -/
def dotFour (a b : Nat) : Int :=
  signedByte a 0 * signedByte b 0 + signedByte a 1 * signedByte b 1 +
    signedByte a 2 * signedByte b 2 + signedByte a 3 * signedByte b 3

/-- Signed division and remainder (R120): by zero, −1 and the dividend; the overflow wraps. -/
def signedDivRem (w a b : Nat) : Nat × Nat :=
  if b = 0 then (2 ^ w - 1, a)
  else (wrap w ((signed w a).tdiv (signed w b)), wrap w ((signed w a).tmod (signed w b)))

/-- One element: a is vs2's, b the second operand, d the destination's old value (R116 to R120, R122). -/
def IntOp.eval (op : IntOp) (w a b d : Nat) : Nat :=
  match op with
  | .add => (a + b) % 2 ^ w
  | .sub => wrap w ((a : Int) - b)
  | .rsub => wrap w ((b : Int) - a)
  | .minu => if b < a then b else a
  | .min => if signed w b < signed w a then b else a
  | .maxu => if a < b then b else a
  | .max => if signed w a < signed w b then b else a
  | .and => a &&& b
  | .or => a ||| b
  | .xor => a ^^^ b
  | .sll => a * 2 ^ (b % w) % 2 ^ w
  | .srl => a / 2 ^ (b % w)
  | .sra => wrap w (signed w a / 2 ^ (b % w))
  | .mul => a * b % 2 ^ w
  | .mulh => wrap w (signed w a * signed w b / 2 ^ w)
  | .macc => (d + a * b) % 2 ^ w
  | .dot4 => wrap w ((d : Int) + dotFour a b)
  | .divu => if b = 0 then 2 ^ w - 1 else a / b
  | .div => (signedDivRem w a b).1
  | .remu => if b = 0 then a else a % b
  | .rem => (signedDivRem w a b).2
  | .saddu => clampUnsigned w ((a : Int) + b)
  | .sadd => clamp w (signed w a + signed w b)
  | .ssubu => clampUnsigned w ((a : Int) - b)
  | .ssub => clamp w (signed w a - signed w b)

/-- The operation reads the destination's old value (R99). -/
def IntOp.accumulates (op : IntOp) : Bool := op == .macc || op == .dot4

/-- The conditions of vcmp (R123). -/
def intCompare (cc : BitVec 3) (w a b : Nat) : Bool :=
  match cc with
  | 0 => a == b
  | 1 => a != b
  | 2 => decide (a < b)
  | 3 => decide (signed w a < signed w b)
  | 4 => decide (a ≤ b)
  | 5 => decide (signed w a ≤ signed w b)
  | 6 => decide (b < a)
  | _ => decide (signed w b < signed w a)

/-- A narrowing clip of a value of twice the width (R118): half is added, the low bits go, and the result is limited. -/
def narrowClip (sgn : Bool) (w a k : Nat) : Nat :=
  let k := k % (2 * w)
  let v : Int := if sgn then signed (2 * w) a else (a % 2 ^ (2 * w) : Int)
  let v := if 0 < k then (v + 2 ^ (k - 1)) / 2 ^ k else v
  if sgn then clamp w v else clampUnsigned w v

/-- A SEW value extended for a widening operation (R121). -/
def extend (sgn : Bool) (w a : Nat) : Int := if sgn then signed w a else (a % 2 ^ w : Int)

/-! ### Floating point -/

/-- The floating-point operations of kinds .vv and .vf that write elements (R146 to R148). -/
inductive FloatOp where
  | add | sub | mul | div | min | max | macc | msac | nmacc | nmsac | sgnj | sgnjn
deriving DecidableEq, Repr

/-- The operation reads the destination's old value (R141). -/
def FloatOp.accumulates : FloatOp → Bool
  | .macc | .msac | .nmacc | .nmsac => true
  | _ => false

/-- One element: a is vs2's, b the second operand, d the destination's old value (R146 to R148). -/
def FloatOp.eval (op : FloatOp) (f : Format) (r : Rounding) (a b d : Nat) : Nat × Flags :=
  let x := f.value a
  let y := f.value b
  let z := f.value d
  match op with
  | .add => f.add r x y
  | .sub => f.sub r x y
  | .mul => f.mul r x y
  | .div => f.div r x y
  | .min => f.bound false a b
  | .max => f.bound true a b
  | .macc => f.fma r false false x y z
  | .msac => f.fma r false true x y z
  | .nmacc => f.fma r true true x y z
  | .nmsac => f.fma r true false x y z
  | .sgnj => (f.withSign a (b.testBit f.magBits), 0)
  | .sgnjn => (f.withSign a (!b.testBit f.magBits), 0)

/-- The unary operations (R150). -/
inductive FloatUnary where
  | sqrt | classify | exp2 | rcp | log2
deriving DecidableEq, Repr

/-- One element of a unary operation (R150). -/
def FloatUnary.eval (op : FloatUnary) (f : Format) (r : Rounding) (a : Nat) : Nat × Flags :=
  match op with
  | .sqrt => f.sqrt r (f.value a)
  | .classify => (f.classOf a, 0)
  | .exp2 => f.exp2 r (f.value a)
  | .rcp => f.rcp r (f.value a)
  | .log2 => f.log2 (f.value a)

/-- The element format of SEW 16 or 32 (R134). -/
def floatFormat (sew : Nat) : Format := if sew = 32 then fp32 else fp16

/-! ### Conversions -/

/-- A format that vfcvt reads or writes (R168). -/
inductive NumFormat where
  | float (f : Format)
  | int (w : Nat)
deriving DecidableEq, Repr

/-- The width of an element in a format. -/
def NumFormat.width : NumFormat → Nat
  | .float f => f.width
  | .int w => w

/-- The exact value of a code (R169). -/
def NumFormat.value (f : NumFormat) (code : Nat) : FVal :=
  match f with
  | .float f => f.value code
  | .int w => FVal.ofInt (signed w code)

/-- The wide format of a vfcvt (R168). -/
def wideFormat (sew : Nat) (wvar : Bool) : NumFormat :=
  match decide (sew = 32), wvar with
  | true, false => .float fp32
  | true, true => .int 32
  | false, false => .float fp16
  | false, true => .float bf16

/-- The other format of a vfcvt; none where the selector is illegal at this SEW (R168). -/
def otherFormat (sew : Nat) (wvar : Bool) (code : Nat) : Option NumFormat :=
  match code with
  | 0 => some (.float e4m3)
  | 1 => some (.float e5m2)
  | 2 => some (.float e2m1)
  | 3 => some (.int 8)
  | 4 => some (.int 4)
  | 5 => if sew = 16 && !wvar then none else some (.float fp16)
  | 6 => if sew = 16 && wvar then none else some (.float bf16)
  | _ => if sew = 16 then none else if wvar then some (.float fp32) else some (.int 32)

/-- A conversion to a floating format (R169): a format without NaN or infinity takes +0 or its largest value, with NV. -/
def toFloat (f : Format) (r : Rounding) (x : FVal) : Nat × Flags :=
  match x with
  | .nan s =>
    if f = e2m1 then (0, flagNV)
    else (f.qnan, flagIf s flagNV)
  | .inf n => if f.hasInf then (f.infinity n, 0) else (f.largest n, flagNV)
  | x => f.rnd r x

/-- A conversion to a signed integer, with NV and NX as R169's table gives them for every source format: its bullet calls a
conversion from an 8-bit or 4-bit format exact and without flags, which one to INT32 need not be (DEDUCED, log entry 31).
Stochastic rounding does not carry a value past the largest magnitude of its
sign: between that and the next integer the result is that magnitude, with OF and NX (R163; log entry 31). -/
def toInt (w : Nat) (r : Rounding) (x : FVal) : Nat × Flags :=
  let hi : Int := 2 ^ (w - 1)
  let (t, past) := x.toInteger .rtz
  let limit := t = (if x.neg then -hi else hi - 1)
  match x with
  | .nan _ => (0, flagNV)
  | .inf n => (wrap w (if n then -hi else hi - 1), flagNV)
  | x =>
    let (v, inexact) := x.toInteger r
    if r.isStochastic && past && limit then (wrap w t, flagOF ||| flagNX)
    else if v < -hi || hi ≤ v then (clamp w v, flagNV) else (wrap w v, flagIf inexact flagNX)

/-- One conversion (R169). -/
def convert (src dst : NumFormat) (r : Rounding) (code : Nat) : Nat × Flags :=
  match dst with
  | .float f => toFloat f r (src.value code)
  | .int w => toInt w r (src.value code)

/-- The source and destination formats of a vfcvt at an element width; none where its selector is illegal (R168). -/
def convertFormats (sew : Nat) (sel : BitVec 5) : Option (NumFormat × NumFormat) :=
  let wvar := sel.getLsbD 3
  if sew = 16 || sew = 32 then
    (otherFormat sew wvar (sel.toNat % 8)).map fun other =>
      if sel.getLsbD 4 then (other, wideFormat sew wvar) else (wideFormat sew wvar, other)
  else none

/-- The random value r of an index (R162). -/
def stochastic (seed : BitVec 32) (j : Word) : Nat :=
  let z : Word := j + seed.setWidth 64 * 0xB5A34C1D97E26F3B#64
  let z := (z ^^^ (z >>> 30)) * 0xE3B17D294C85A6F1#64
  let z := (z ^^^ (z >>> 27)) * 0x8D4F2B63D1A95C07#64
  let z := z ^^^ (z >>> 31)
  field z 48 16

/-- The rounding of a vfcvt for the element of an absolute index (R162, R168). -/
def convertRounding (rf : BitVec 2) (frm : BitVec 3) (seed : BitVec 32) (j : Word) : Rounding :=
  match rf with
  | 0 => Rounding.ofCode frm
  | 1 => .rtz
  | 2 => .rne
  | _ => .sr (stochastic seed j)

end Sys2Proof.Machine
end

