-- ==== Sys2Proof/Machine/Governor.lean ====
section
/-! DEFINITION. The load-step governor (15_power_governor R354 to R362): the two balances of a die, charges and
releases, the held load of a core, and the lanes a `vcfg` is offered. -/

namespace Sys2Proof.Machine

/-- The capacity of a balance, in mA (R354). -/
def bucketSize : Nat := 64000

/-- The refill of a balance at each station tick, in mA (R354). -/
def refillRate : Nat := 50

/-- The largest held load, in mA (R356). -/
def heldMax : Nat := 14420

/-- The charge of one powered lane, in mA (R355). -/
def laneCharge : Nat := 60

/-- A release that has grown the held load of a core (R356). That of a gating grows none, since the core's held load is released
before it is in hold (R368), nor does that of a level, which is a cluster's and no core's: R356 speaks of every falling step
(DESIGN CHOICE, log entry 97). -/
def Release.holds (core : Nat) (r : Release) : Bool := r.core = core && (r.kind = .load || r.kind = .quiet)

/-- Uses up held load for a rising step: that of releases that wait first, the oldest before the others, and then that of no
release. R356 names no order (DESIGN CHOICE, log entry 97). -/
def takeFromReleases (core : Nat) : Nat → List Release → List Release
  | _, [] => []
  | n, r :: rs =>
    let k := if r.holds core then min n r.held else 0
    let rest := takeFromReleases core (n - k) rs
    if k ≠ 0 && r.amount = k then rest else { r with amount := r.amount - k, held := r.held - k } :: rest

/-- A rising step uses the core's held load: H := max(0, H − c) (R356). -/
def State.useHeld (core c : Nat) (s : State) : State :=
  let used := min c (s.coreOf core).power.held
  (s.updCore core fun k => { k with power := { k.power with held := k.power.held - used } }).mapDie (dieOf core)
    fun d => { d with releases := takeFromReleases core used d.releases }

/-- What a rising step of amount c costs B_up on a core: max(0, c − H) (R356). -/
def State.netCharge (s : State) (core c : Nat) : Nat := c - (s.coreOf core).power.held

/-- Takes an amount from B_up and notes it for the region's window (R355, R357). Only what is taken from B_up is noted, and no release,
which R355 calls a charge too (DESIGN CHOICE, log entry 97). -/
def State.payUp (die : Nat) (region : Option Nat) (n : Nat) (s : State) : State :=
  s.mapDie die fun d =>
    { d with bUp := d.bUp - n
             history := match region with | some g => ⟨s.tick, g, n⟩ :: d.history | none => d.history }

/-- Pays a rising step of a core at once (R355, R356). -/
def State.payStep (core c : Nat) (s : State) : State :=
  let n := s.netCharge core c
  (s.payUp (dieOf core) ((s.coreOf core).cont.map (·.region)) n).useHeld core c

/-- H grows, to 14,420 mA at most (R356). -/
def PowerState.hold (n : Nat) (p : PowerState) : PowerState := { p with held := min heldMax (p.held + n) }

/-- A falling step of a core: ballast holds the load until B_dn pays for it, as far as H has room for it (R355, R356). -/
def State.releaseLoad (core amount : Nat) (kind : ReleaseKind) (s : State) : State :=
  if amount = 0 then s else
  let grown := min amount (heldMax - (s.coreOf core).power.held)
  (s.updCore core fun k => { k with power := k.power.hold amount }).mapDie (dieOf core)
    fun d => { d with releases := d.releases ++ [⟨core, amount, kind, grown⟩] }

/-- The region's charges of the last 1,000 ticks exceed its share (R357): what was taken from B_up alone (DESIGN CHOICE, log entry
97). -/
def State.overShare (s : State) (die : Nat) (region : Option Nat) : Bool :=
  match region with
  | none => false
  | some g =>
    let sum := ((s.die die).history.filter fun p => p.region = g && s.tick < p.tick + 1000).foldl (· + ·.amount) 0
    decide (s.pwrShare g * refillRate * 1000 / 1024 < sum)

/-- The amount a waiting charge now takes from B_up (R356). -/
def State.chargeCost (s : State) (c : Charge) : Nat :=
  match c.payer with
  | .level _ | .pin _ => c.amount
  | .instruction k | .dispatch k | .requeue k | .cap k => s.netCharge k c.amount

/-- A waiting step that H covers in full: a transfer, which never waits (R356). -/
def State.isTransfer (s : State) (c : Charge) : Bool :=
  match c.payer with
  | .level _ | .pin _ => false
  | .instruction _ | .dispatch _ | .requeue _ | .cap _ => s.chargeCost c == 0

/-- The waiter served next: a transfer, else first in first out, regions over their share after all others (R356, R357). -/
def State.nextWaiter (s : State) (die : Nat) : Option Charge :=
  let q := (s.die die).charges
  ((q.find? s.isTransfer).orElse fun _ => q.find? fun c => !s.overShare die c.region).orElse fun _ => q.head?

/-- The bounds of a rail in mV (R14, R365, R371). -/
def railFloor : Nat := 420
def railCeiling : Nat := 600

/-- A DVFS table that the rails allow: every voltage in their range, and rising with the level (R14, R365). -/
def tableOk (table : Vector Nat 16) : Bool :=
  (table.all fun v => railFloor ≤ v && v ≤ railCeiling) &&
    (List.range 15).all fun k => table[k]?.getD 0 ≤ table[k + 1]?.getD 0

/-- The rail target at a level in mV, for an undervolt offset, by the table in force; a table that is loaded while an offset
is in force never takes the rail below its floor (R14, R365). -/
def State.railTarget (s : State) (level undervolt : Nat) : Nat :=
  max railFloor (s.dev.dvfsTable[level]?.getD 0 - 5 * undervolt)

/-- The station ticks a rail takes from one target to another: 10 mV in 1,000 (R365). -/
def slewTicks (a b : Nat) : Nat := 100 * ((a - b) + (b - a))

/-- The station ticks of one frequency step (R365). -/
def clockTicks : Nat := 100

/-- A cluster's rail begins to move to a target (R365, R366). -/
def State.moveRail (k : Nat) (state : DvfsState) (target : Nat) (s : State) : State :=
  s.mapCluster k fun c => { c with dvfs := state, rail := target, arrive := s.tick + slewTicks c.rail target }

/-- A cluster's clock begins to move by one level (R365, R366). -/
def State.moveClock (k : Nat) (state : DvfsState) (s : State) : State :=
  s.mapCluster k fun c => { c with dvfs := state, arrive := s.tick + clockTicks }

/-- A waiting charge is paid: its step may start (R355, R357, R366). -/
def State.payCharge (die : Nat) (c : Charge) (s : State) : State :=
  let s := s.mapDie die fun d => { d with charges := d.charges.erase c }
  match c.payer with
  | .level k =>
    let cl := s.cluster k
    (s.payUp die c.region c.amount).moveRail k .voltUp (s.railTarget (cl.level + 1) cl.undervolt)
  | .pin k => (s.payUp die c.region c.amount).updCore k fun core =>
      { core with power := { core.power.hold c.amount with paid := true } }
  | .cap k => (s.payStep k c.amount).updCore k fun core =>
      { core with power := { core.power with
          cap := (s.cluster (k / 12)).cap, capCharge := core.power.capCharge + c.amount } }
  | .instruction k | .dispatch k | .requeue k =>
    (s.payStep k c.amount).updCore k fun core => { core with power := { core.power with paid := true } }

/-- Serves the charge queue of a die while its head can be paid (R355, R357). -/
def State.serveCharges (die : Nat) : Nat → State → State
  | 0, s => s
  | fuel + 1, s =>
    match s.nextWaiter die with
    | none => s
    | some c => if s.chargeCost c ≤ (s.die die).bUp then (s.payCharge die c).serveCharges die fuel else s

/-- What a paid release lets go (R355, R361, R366, R368). -/
def State.finishRelease (die : Nat) (r : Release) (s : State) : State :=
  let s := s.mapDie die fun d => { d with bDn := d.bDn - r.amount, releases := d.releases.erase r }
  match r.kind with
  | .load | .quiet => s.updCore r.core fun k => { k with power := { k.power with held := k.power.held - r.held } }
  | .gating => s.updCore r.core fun k =>
      match k.power.gate, k.cont with
      | .hold _, none => { k with power := { k.power with gate := .gated } }
      | _, _ => k
  | .level k => s.moveClock k .freqDown

/-- Pays a die's releases while B_dn covers the next one (R355), strictly in the order they came, so that one that is not covered
holds back those behind it: the spec orders the waiting charges alone (DESIGN CHOICE, log entry 97). -/
def State.serveReleases (die : Nat) : Nat → State → State
  | 0, s => s
  | fuel + 1, s =>
    match (s.die die).releases with
    | [] => s
    | r :: _ => if r.amount ≤ (s.die die).bDn then (s.finishRelease die r).serveReleases die fuel else s

/-- One die at the end of a station tick: once every pinned charge of the tick has been taken, the waiting charges, then the
releases (R355). -/
def State.serveDie (die : Nat) (s : State) : State :=
  let s := s.serveCharges die (s.die die).charges.length
  s.serveReleases die (s.die die).releases.length

/-- One die at the start of a station tick: the refill (R354, R355). -/
def State.refillDie (die : Nat) (s : State) : State :=
  s.mapDie die fun d =>
    { d with bUp := min bucketSize (d.bUp + refillRate), bDn := min bucketSize (d.bDn + refillRate)
             history := d.history.filter fun p => s.tick < p.tick + 1000 }

/-- The continuation bound to a core belongs to a pinned region (R69, R358). -/
def State.corePinned (s : State) (core : Nat) : Bool :=
  match (s.coreOf core).cont with | some k => s.pinned k.region | none => false

/-- The lane ceiling min(A, CEIL, VOL) of a core (R360). -/
def State.laneCeiling (s : State) (core : Nat) : Nat :=
  let k := s.coreOf core
  min (lanesInService k.vec.laneMap) (min (s.cluster (core / 12)).ceil k.power.vol)

/-- The lanes g that a `vcfg` of a core is offered (R360): A for a pinned core. -/
def State.offer (s : State) (core : Nat) : Nat :=
  let k := s.coreOf core
  if s.corePinned core then lanesInService k.vec.laneMap
  else
    let cap := s.laneCeiling core
    let die := s.die (dieOf core)
    let tokens := if die.charges.isEmpty then die.bUp / laneCharge else 0
    if cap ≤ k.power.powered then cap else min cap (k.power.powered + tokens)

/-- OFFER (R360, R364): its Reset column holds until the governor's first tick after module reset (DEDUCED, log entry 74). -/
def State.offerField (s : State) (core : Nat) : Nat := if s.tick = 0 then 1 else s.offer core

/-- A charge that waits is withdrawn. -/
def State.withdrawCharge (die : Nat) (payer : Payer) (s : State) : State :=
  s.mapDie die fun d => { d with charges := d.charges.filter fun q => q.payer ≠ payer }

/-- A rising step of the core in focus that may wait in the charge queue (R355 to R357). It proceeds where H covers it,
where its charge has been paid, or where nothing waits and the balance suffices; otherwise it joins the queue once. A
transfer leaves no charge of its own behind. -/
def awaitCharge (payer : Payer) (c : Nat) : Exec Unit := do
  let s ← get
  let core := s.core.id
  let die := s.die (dieOf core)
  if s.core.power.paid then
    modify (State.mapCore fun k => { k with power := { k.power with paid := false } })
  else if s.netCharge core c = 0 then modify fun s => (s.withdrawCharge (dieOf core) payer).useHeld core c
  else if die.charges.isEmpty && s.netCharge core c ≤ die.bUp then modify (State.payStep core c)
  else
    if !(die.charges.any fun q => q.payer = payer) then
      modify (State.mapDie (dieOf core) fun d => { d with charges := d.charges ++ [⟨payer, c, s.region⟩] })
    throw .wait

/-- Pinned charges of a station tick are taken in ascending core numbers: none of a higher core has been taken in this one
(R355). -/
def State.pinnedTurn (s : State) (core : Nat) : Bool :=
  (s.die (dieOf core)).lastPinned.all fun l => l.1 != s.tick || decide (l.2 ≤ core)

/-- A rising step of the core in focus in a pinned region: false where the balance is short, and then nothing is charged. It
never waits for tokens; one that comes after that of a higher core is taken in the next station tick (R355, R358). -/
def pinnedStep (c : Nat) : Exec Bool := do
  let s ← get
  let core := s.core.id
  waitUntil (s.pinnedTurn core)
  if s.netCharge core c ≤ (s.die (dieOf core)).bUp then
    modify fun s => (s.payStep core c).mapDie (dieOf core) fun d => { d with lastPinned := some (s.tick, core) }
    return true
  else return false

/-- A rising step of a pinned core that raises cause 30 where the balance is short (R358). -/
def pinnedCharge (c : Nat) : Exec Unit := do
  if !(← pinnedStep c) then raise 30 0

/-- A waiting instruction that is interrupted leaves the charge queue (R357). -/
def State.leaveChargeQueue (s : State) : State :=
  (s.mapDie (dieOf s.core.id) fun d =>
    { d with charges := d.charges.filter fun q => q.payer ≠ .instruction s.core.id ∧ q.payer ≠ .pin s.core.id }).mapCore
      fun k => { k with power := { k.power with pin := none } }

/-- Takes an enabled interrupt; the instruction at pc leaves the charge queue (R333, R357). -/
def State.interruptNow (n : Nat) (s : State) : State := s.leaveChargeQueue.takeInterrupt n

/-- A quiet release that its continuation leaves behind is a release like any other, which no later continuation withdraws
(R361). -/
def State.settleQuiet (core : Nat) (s : State) : State :=
  s.mapDie (dieOf core) fun d => { d with releases := d.releases.map fun r =>
    if r.core = core && r.kind = .quiet then { r with kind := .load } else r }

/-- The unpaid quiet release of a core's continuation is withdrawn (R361). -/
def State.withdrawQuiet (core : Nat) (s : State) : State :=
  let mine (r : Release) : Bool := r.core = core && r.kind = .quiet
  let n := ((s.die (dieOf core)).releases.filter mine).foldl (· + ·.held) 0
  (s.updCore core fun k => { k with power := { k.power with held := k.power.held - n } }).mapDie (dieOf core)
    fun d => { d with releases := d.releases.filter fun r => !mine r }

/-- The next instruction that enters qv ends quietness (R361): an unpaid release is withdrawn; a paid one is charged
again, less H. A `vcfg` is such an instruction and waits for that charge, though R360 and R113 have it never wait (DESIGN CHOICE, log
entry 107). -/
def enterQv : Exec Unit := do
  let s ← get
  let core := s.core.id
  let p := s.core.power
  if p.quietLoad ≠ 0 then
    let waiting := (s.die (dieOf core)).releases.any fun r => r.core = core && r.kind = .quiet
    if waiting then modify (State.withdrawQuiet core)
    else awaitCharge (.requeue core) p.quietLoad
  modify (State.mapCore fun k => { k with inQv := true, power := { k.power with quietLoad := 0, qvIdle := 0 } })

/-- The charge of a dispatch or restore onto a core in hold, and onto a gated core after its wake (R355). -/
def dispatchCost (gate : GateState) : Nat :=
  match gate with
  | .hold _ | .active | .ballast => 1200
  | _ => 1500

/-- The mode cost a core carries outside vector mode, without its lanes (R355). -/
def modeCost : LaneMode → Nat
  | .vector => 0
  | .threaded => 1600
  | .matrix => 5600

/-- The load charged to a core and not yet released: its dispatch, its powered lanes beyond the first, its mode, its cap
levels, less what it released when quiet (R356, R361). -/
def Core.load (k : Core) : Nat :=
  k.power.dispatchCharge + laneCharge * (k.power.powered - 1) + k.power.modeCharge + k.power.capCharge - k.power.quietLoad

/-- Releases the part of a core's held load that no release waits for (R341, R362, R373). -/
def State.releaseHeld (core : Nat) (s : State) : State :=
  let d := s.die (dieOf core)
  let waiting := (d.releases.filter (Release.holds core)).foldl (· + ·.held) 0
  let rest := (s.coreOf core).power.held - waiting
  let s := s.updCore core fun k => { k with power := { k.power with heldSince := none } }
  if rest = 0 then s
  else s.mapDie (dieOf core) fun d => { d with releases := d.releases ++ [⟨core, rest, .load, rest⟩] }

/-- A load that a save kept is released as far as no release waits for it (R341, R362). -/
def State.releaseKept (core : Nat) (s : State) : State :=
  if (s.coreOf core).power.heldSince.isSome then s.releaseHeld core else s

/-- The gating of a core whose continuation has left it: it runs ballast, and where it stood in hold its hold begins anew; one in its
wake, or gated, stays so (R362, R368). -/
def GateState.vacated : GateState → GateState
  | .active | .hold _ => .ballast
  | g => g

/-- A core without a continuation draws nothing of its own (R362, R368). -/
def PowerState.unload (p : PowerState) : PowerState :=
  { p with dispatchCharge := 0, powered := 1, modeCharge := 0, capCharge := 0, quietLoad := 0, gate := p.gate.vacated }

/-- An idle core releases its whole load and runs ballast until that is paid (R362). -/
def State.releaseAll (core : Nat) (s : State) : State :=
  (((s.settleQuiet core).releaseLoad core (s.coreOf core).load .load).releaseHeld core).updCore core fun k =>
    { k with power := k.power.unload }

/-- A save with IDLE that meets a stop request keeps the load as held load (R341, R356). -/
def State.keepLoad (core : Nat) (s : State) : State :=
  (s.settleQuiet core).updCore core fun k => { k with power := { k.power.unload with
    held := min heldMax (k.power.held + k.load), heldSince := some s.tick } }

end Sys2Proof.Machine
end

