-- ==== Sys2Proof/Machine/Operands.lean ====
section
/-! DEFINITION. The operands of the vector classes (01_machine R19 to R22, 05_vector_integer R96 to R110, R156): where
elements and mask bits lie in the lanes, second operands, the checks every vector instruction makes before its first
element, and the passes over the body and the tail. -/

namespace Sys2Proof.Machine

/-! ### Elements and masks -/

/-- Where elements lie: the granted lanes, the register count, and the lane at each position (R20, R21). -/
structure Geometry where
  g : Nat
  n : Nat
  lanes : List Nat
deriving DecidableEq, Repr

/-- The geometry in force. -/
def VecState.geometry (v : VecState) : Geometry := ⟨v.cfg.g, nregOf v.cfg.nreg, lanePositions v.laneMap⟩

/-- The bytes of one register in one lane's slice (R20). -/
def Geometry.slice (geo : Geometry) : Nat := 2048 / geo.n

/-- The lane of element i (R21). -/
def Geometry.lane (geo : Geometry) (i : Nat) : Nat := geo.lanes.getD (i % geo.g) 0

/-- The byte of element i of a register at a width of at least 8 bits, in its lane's slice (R21, R97). -/
def Geometry.offset (geo : Geometry) (w r i : Nat) : Nat := r * geo.slice + i / geo.g * (w / 8)

/-- How many elements of a width a register, or a group of `span` registers, holds over the granted lanes (R106). -/
def Geometry.cap (geo : Geometry) (w span : Nat) : Nat := geo.g * (16384 / geo.n) / w * span

/-- How many bits a mask register holds (R98). -/
def Geometry.maskCap (geo : Geometry) : Nat := geo.g * (16384 / geo.n)

/-- A lane's slice of the register file. -/
def VecState.slice (v : VecState) (lane : Nat) : ByteMap := v.vrf[lane]?.getD []

/-- Writes bytes of a lane's slice and marks the register dirty (R338). -/
def VecState.putBytes (v : VecState) (geo : Geometry) (lane off n val : Nat) : VecState :=
  { v with vrf := v.vrf.setIfInBounds lane ((v.slice lane).write off n val)
           kvdirty := v.kvdirty ||| (1#32 <<< (off / geo.slice)) }

/-- Element i of a register at width w; a pair is read at twice the width from its first register, and 4-bit elements
lie two to a byte (R21, R97, R156). -/
def VecState.elem (v : VecState) (geo : Geometry) (w r i : Nat) : Nat :=
  if w = 4 then (v.slice (geo.lane (i / 2))).read (geo.offset 8 r (i / 2)) 1 / 16 ^ (i % 2) % 16
  else (v.slice (geo.lane i)).read (geo.offset w r i) (w / 8)

/-- Writes element i of a register at width w. -/
def VecState.putElem (v : VecState) (geo : Geometry) (w r i val : Nat) : VecState :=
  if w = 4 then
    let l := geo.lane (i / 2)
    let off := geo.offset 8 r (i / 2)
    let old := (v.slice l).read off 1
    v.putBytes geo l off 1 (if i % 2 = 0 then old / 16 * 16 + val % 16 else old % 16 + val % 16 * 16)
  else v.putBytes geo (geo.lane i) (geo.offset w r i) (w / 8) val

/-- Bit i of a mask register (R98). -/
def VecState.maskBit (v : VecState) (geo : Geometry) (r i : Nat) : Bool :=
  let k := i / geo.g
  ((v.slice (geo.lane i)).get (r * geo.slice + k / 8)).getLsbD (k % 8)

/-- Writes bit i of a mask register (R98). -/
def VecState.putMask (v : VecState) (geo : Geometry) (r i : Nat) (b : Bool) : VecState :=
  let k := i / geo.g
  let l := geo.lane i
  let off := r * geo.slice + k / 8
  let old := ((v.slice l).get off).toNat
  let cleared := if old.testBit (k % 8) then old - 2 ^ (k % 8) else old
  v.putBytes geo l off 1 (cleared + if b then 2 ^ (k % 8) else 0)

/-- `active(i)` of an element in the body (00_scope): unmasked, or its bit of v0 is one. -/
def VecState.active (v : VecState) (geo : Geometry) (vm : BitVec 1) (i : Nat) : Bool := vm == 1 || v.maskBit geo 0 i

/-- What an instruction writes: elements of a width in one or two registers, or mask bits. -/
inductive Dest where
  | elems (w reg span : Nat)
  | mask (reg : Nat)
deriving DecidableEq, Repr

/-- Writes element or bit i of a destination. -/
def Dest.put (d : Dest) (geo : Geometry) (i val : Nat) (v : VecState) : VecState :=
  match d with
  | .elems w r _ => v.putElem geo w r i val
  | .mask r => v.putMask geo r i (val != 0)

/-- How many elements or bits a destination holds (R106). -/
def Dest.cap (d : Dest) (geo : Geometry) : Nat :=
  match d with
  | .elems w _ span => geo.cap w span
  | .mask _ => geo.maskCap

/-! ### Second operands -/

/-- The second operand: a register's elements, or one value for every element (R109, R143). -/
inductive Operand where
  | vec (r : Nat)
  | all (v : Nat)
deriving DecidableEq, Repr

/-- b(i) (R109, R143). -/
def Operand.at (b : Operand) (v : VecState) (geo : Geometry) (w i : Nat) : Nat :=
  match b with
  | .vec r => v.elem geo w r i
  | .all x => x

/-- The registers a second operand reads. -/
def Operand.reads : Operand → List Nat
  | .vec r => [r]
  | .all _ => []

/-- The operand of kind .vx: the low SEW bits of an x register (R109). -/
def State.xOperand (s : State) (r : BitVec 5) : Operand := .all ((s.x r).toNat % 2 ^ s.sew)

/-- The operand of kind .vi: the 5-bit immediate, sign-extended to SEW bits (R109). -/
def State.immOperand (s : State) (imm : BitVec 5) : Operand := .all (wrap s.sew imm.toInt)

/-- The immediate of a shift or of vreshape, 0 to 31 (R109). -/
def uimmOperand (imm : BitVec 5) : Operand := .all imm.toNat

/-- The operand of kind .vf: an f register, of which a 16-bit format takes the low half (R143). It is read whatever
mstatus.FS holds, of which no rule speaks (DESIGN CHOICE, log entry 64). -/
def State.fOperand (s : State) (r : BitVec 5) : Operand := .all ((s.f r).toNat % 2 ^ s.sew)

/-! ### The checks before the first element -/

/-- A pending lane change raises cause 31, which clears VLX (R110). -/
def checkLaneChange : Exec Unit := do
  if (← get).core.vec.cfg.vlx then
    modify (State.mapVec fun v => { v with cfg := { v.cfg with vlx := false } })
    raise 31 0

/-- The lane mode must be one of two given ones, else cause 25 with stval 0 (R96, R221). -/
def checkMode (m : LaneMode) : Exec Unit := do
  if (← get).core.mat.mode ≠ m then raise 25 0

/-- A register is full (R99). -/
def State.isFull (s : State) (r : Nat) : Bool := s.core.vec.full.getLsbD r

/-- The full/empty rule (R99): a read of an empty register whose kvfe bit is one raises cause 26 with its number;
otherwise the instruction waits until every register it touches is full. Where one must wait and another trap, it traps at once,
which R99 leaves open (DESIGN CHOICE, log entry 29). -/
def checkFull (reads writes : List Nat) : Exec Unit := do
  let s ← get
  match reads.find? fun r => !s.isFull r && s.core.vec.kvfe.getLsbD r with
  | some r => raise 26 (BitVec.ofNat 64 r)
  | none => awaitLoads ((reads ++ writes).all s.isFull)

/-- Every register named is below the register count in force (R108). -/
def State.namesOk (s : State) (rs : List Nat) : Bool := rs.all fun r => decide (r < s.nreg)

/-- v0 where an instruction is masked. -/
def maskReads (vm : BitVec 1) : List Nat := if vm = 0 then [0] else []

/-- A masked instruction does not write v0 (R108). -/
def maskOk (vm : BitVec 1) (vd : Nat) : Bool := vm == 1 || vd != 0

/-- What an instruction of the vector classes does before its first element, in the order of R41: its register checks,
cause 31, cause 25, and the full/empty rule. -/
def beginVector (ok : Bool) (reads writes : List Nat) : Exec Unit := do
  let s ← get
  require (ok && s.namesOk (reads ++ writes))
  checkLaneChange
  checkMode .vector
  enterQv
  checkFull reads writes

/-! ### Passes over the body and the tail -/

/-- What an instruction does to one element: nothing, or a value and the flags it raises. -/
abbrev ElementResult := Option (Nat × Flags)

/-- Writes one element's result and raises its flags. -/
def State.commit (geo : Geometry) (d : Dest) (i : Nat) (r : ElementResult) (s : State) : State :=
  match r with
  | none => s
  | some (val, fl) => (s.mapVec (d.put geo i val)).raiseVector fl

/-- Writes the results of `n` elements from `i` up. -/
def State.commitFrom (geo : Geometry) (d : Dest) (f : Nat → ElementResult) : Nat → Nat → State → State
  | 0, _, s => s
  | n + 1, i, s => State.commitFrom geo d f n (i + 1) (s.commit geo d i (f i))

/-- The tail from an element up: unchanged, or zero where TAIL is set (R106). -/
def State.writeTail (geo : Geometry) (d : Dest) (start : Nat) (s : State) : State :=
  if s.core.vec.cfg.tail then
    s.commitFrom geo d (fun _ => some (0, 0)) (d.cap geo - start) start
  else s

/-- Where an instruction that starts at `lo` stops when an interrupt is to be taken after some element groups: the
first element of the next group, or the end (R107; log entry 9). -/
def State.stopPoint (s : State) (geo : Geometry) (lo hi : Nat) : Nat :=
  match s.core.stopAt with
  | none => hi
  | some k => min hi ((lo / geo.g + k) * geo.g)

/-- The pass of an interruptible instruction over its body and its tail (R106, R107). Every result is formed from the
registers as they stood. -/
def elementwise (geo : Geometry) (d : Dest) (f : Nat → ElementResult) : Exec Unit := do
  let s ← get
  let lo := s.vstart
  let hi := s.vl
  if hi ≤ lo then modify (State.setVstart 0)
  else
    let stop := s.stopPoint geo lo hi
    modify (State.commitFrom geo d f (stop - lo) lo)
    if stop < hi then
      modify (State.setVstart stop)
      throw .wait
    modify fun s => (s.writeTail geo d hi).setVstart 0

/-- The pass of a non-interruptible instruction, with kvstart taken as 0 (R107): its first `n` elements are written and
the rest is tail; with kvl = 0 nothing is written. Of R106 neither the prestart row nor its clause on kvstart ≥ kvl binds it: R107
says no more than that active(i) takes kvstart as 0 (DESIGN CHOICE, log entry 99). -/
def wholesale (geo : Geometry) (d : Dest) (n : Nat) (f : Nat → ElementResult) : Exec Unit := do
  if (← get).vl ≠ 0 then
    modify fun s => (s.commitFrom geo d f n 0).writeTail geo d n
  modify (State.setVstart 0)

/-- A vector instruction of the integer, floating-point and narrow classes: its checks, its pass, and its retirement. -/
def vectorOp (ok : State → Bool) (reads writes : State → List Nat) (pass : State → Exec Unit) :
    State → Host.Outcome State Fault Refusal :=
  retiring do
    let s ← get
    beginVector (ok s) (reads s) (writes s)
    pass (← get)

end Sys2Proof.Machine
end

