-- ==== Sys2Proof/Machine/VecFloat.lean ====
section
/-! DEFINITION. The vector floating-point instructions (06_vector_float R134 to R154): custom-0 funct6 0x20 to 0x2F. -/

namespace Sys2Proof.Machine

/-- SEW names a floating-point format (R134, R142). -/
def State.floatSew (s : State) : Bool := s.sew == 16 || s.sew == 32

/-- The vector rounding mode (R138). -/
def State.vectorRounding (s : State) : Rounding := Rounding.ofCode s.core.vec.cfg.frm

/-- An element-wise floating-point instruction (R146 to R148). -/
def floatVector (op : FloatOp) (b : State → Operand) (vd vs2 : BitVec 5) (vm : BitVec 1) :
    State → Host.Outcome State Fault Refusal :=
  vectorOp (fun s => s.floatSew && maskOk vm vd.toNat)
    (fun s => vs2.toNat :: (b s).reads ++ (if op.accumulates then [vd.toNat] else []) ++ maskReads vm)
    (fun _ => [vd.toNat])
    fun s =>
      let v := s.core.vec
      let geo := v.geometry
      let w := s.sew
      elementwise geo (.elems w vd.toNat 1) fun i =>
        if v.active geo vm i then
          some (op.eval (floatFormat w) s.vectorRounding (v.elem geo w vs2.toNat i) ((b s).at v geo w i)
            (v.elem geo w vd.toNat i))
        else none

/-- A unary operation (R150). -/
def unaryVector (op : FloatUnary) (vd vs2 : BitVec 5) (vm : BitVec 1) : State → Host.Outcome State Fault Refusal :=
  vectorOp (fun s => s.floatSew && maskOk vm vd.toNat) (fun _ => vs2.toNat :: maskReads vm) (fun _ => [vd.toNat])
    fun s =>
      let v := s.core.vec
      let geo := v.geometry
      let w := s.sew
      elementwise geo (.elems w vd.toNat 1) fun i =>
        if v.active geo vm i then some (op.eval (floatFormat w) s.vectorRounding (v.elem geo w vs2.toNat i)) else none

/-- vfcmp: a mask destination, which may be v0 under a mask (R149). -/
def floatCompareVector (cc : BitVec 3) (md : BitVec 2) (b : State → Operand) (vs2 : BitVec 5) (vm : BitVec 1) :
    State → Host.Outcome State Fault Refusal :=
  vectorOp (fun s => s.floatSew) (fun s => vs2.toNat :: (b s).reads ++ maskReads vm) (fun _ => [md.toNat])
    fun s =>
      let v := s.core.vec
      let geo := v.geometry
      let w := s.sew
      elementwise geo (.mask md.toNat) fun i =>
        if v.active geo vm i then
          let (r, fl) := (floatFormat w).compare cc.toNat (v.elem geo w vs2.toNat i) ((b s).at v geo w i)
          some (if r then 1 else 0, fl)
        else none

/-- vfwmacc: FP16 or BF16 products into an FP32 pair that overlaps no source (R142, R151). -/
def floatWideVector (f : Format) (b : State → Operand) (vd vs2 : BitVec 5) (vm : BitVec 1) :
    State → Host.Outcome State Fault Refusal :=
  vectorOp
    (fun s => s.sew == 16 && maskOk vm vd.toNat && vd.toNat % 2 == 0 &&
      (vs2.toNat :: (b s).reads).all fun r => r / 2 != vd.toNat / 2)
    (fun s => vs2.toNat :: (b s).reads ++ [vd.toNat, vd.toNat + 1] ++ maskReads vm)
    (fun _ => [vd.toNat, vd.toNat + 1])
    fun s =>
      let v := s.core.vec
      let geo := v.geometry
      elementwise geo (.elems 32 vd.toNat 2) fun i =>
        if v.active geo vm i then
          some (fp32.fma s.vectorRounding false false (f.value (v.elem geo 16 vs2.toNat i))
            (f.value ((b s).at v geo 16 i)) (fp32.value (v.elem geo 32 vd.toNat i)))
        else none

/-- The active elements of the body as the leaves of a tree: none where inactive (R152). -/
def VecState.leaves (v : VecState) (geo : Geometry) (vm : BitVec 1) (w r hi : Nat) : List (Option Nat) :=
  (List.range hi).map fun i => if v.active geo vm i then some (v.elem geo w r i) else none

/-- One node: two present nodes are added, and a node beside an absent one passes up unchanged (R152). -/
def treeNode (f : Format) (r : Rounding) (a b : Option Nat) : Option Nat × Flags :=
  match a, b with
  | some x, some y => let (v, fl) := f.add r (f.value x) (f.value y); (some v, fl)
  | some x, none => (some x, 0)
  | none, b => (b, 0)

/-- One level of the tree (R152). -/
def treeLevel (f : Format) (r : Rounding) : List (Option Nat) → List (Option Nat) × Flags
  | a :: b :: rest =>
    let (v, fl) := treeNode f r a b
    let (vs, fls) := treeLevel f r rest
    (v :: vs, fl ||| fls)
  | rest => (rest, 0)

/-- The root of the tree over a list of nodes, and the flags raised (R152); each level at least halves the list, so
its length bounds the levels. -/
def treeRoot (f : Format) (r : Rounding) : Nat → List (Option Nat) → Option Nat × Flags
  | 0, l => (l.headD none, 0)
  | fuel + 1, l =>
    if l.length ≤ 1 then (l.headD none, 0)
    else
      let (l', fl) := treeLevel f r l
      let (v, fls) := treeRoot f r fuel l'
      (v, fl ||| fls)

/-- The seed plus the root of the tree; the seed itself where no leaf is present (R152, R174). -/
def treeSum (f : Format) (r : Rounding) (seed : Nat) (l : List (Option Nat)) : Nat × Flags :=
  match treeRoot f r l.length l with
  | (none, _) => (seed, 0)
  | (some x, fl) => let (v, fls) := f.add r (f.value seed) (f.value x); (v, fl ||| fls)

/-- The bound of the seed and the active elements (R154). -/
def boundFold (f : Format) (greatest : Bool) (seed : Nat) (l : List Nat) : Nat × Flags :=
  l.foldl (fun (acc, fl) x => let (v, fls) := f.bound greatest acc x; (v, fl ||| fls)) (seed, 0)

/-- NV of a bound reduction: some operand is a signalling NaN (R154). -/
def boundReduce (f : Format) (greatest : Bool) (seed : Nat) (l : List Nat) : Nat × Flags :=
  if l.isEmpty then (seed, 0)
  else ((boundFold f greatest seed l).1, flagIf ((seed :: l).any fun x => (f.value x).isSnan) flagNV)

/-- A non-interruptible floating-point reduction into element 0 of vd, which may be any register (R142, R152, R154). -/
def floatReduce (f : Format → Rounding → Nat → List (Option Nat) → Nat × Flags) (vd vs2 vs1 : BitVec 5) (vm : BitVec 1) :
    State → Host.Outcome State Fault Refusal :=
  vectorOp (fun s => s.floatSew) (fun _ => [vs2.toNat, vs1.toNat] ++ maskReads vm) (fun _ => [vd.toNat])
    fun s =>
      let v := s.core.vec
      let geo := v.geometry
      let w := s.sew
      let r := f (floatFormat w) s.vectorRounding (v.elem geo w vs1.toNat 0) (v.leaves geo vm w vs2.toNat s.vl)
      wholesale geo (.elems w vd.toNat 1) 1 fun _ => some r

/-- vfosum over the elements from `lo` to `hi` (R153). -/
def orderedSum (f : Format) (r : Rounding) (acc : Nat) (l : List Nat) : Nat × Flags :=
  l.foldl (fun (acc, fl) x => let (v, fls) := f.add r (f.value acc) (f.value x); (v, fl ||| fls)) (acc, 0)

/-- vfosum: sums in element order; an interrupted sum is parked in element 0 of vd and read back (R141, R153). -/
def execVfosumVs (vd vs2 vs1 : BitVec 5) (vm : BitVec 1) : State → Host.Outcome State Fault Refusal :=
  vectorOp (fun s => s.floatSew && maskOk vm vd.toNat)
    (fun s => [vs2.toNat, vs1.toNat] ++ (if s.vstart = 0 then [] else [vd.toNat]) ++ maskReads vm)
    (fun _ => [vd.toNat])
    fun s => do
      let v := s.core.vec
      let geo := v.geometry
      let w := s.sew
      let d : Dest := .elems w vd.toNat 1
      let lo := s.vstart
      let hi := s.vl
      if lo < hi then
        let stop := s.stopPoint geo lo hi
        let seed := v.elem geo w (if lo = 0 then vs1.toNat else vd.toNat) 0
        let body := ((List.range (stop - lo)).map (· + lo)).filter (v.active geo vm)
        let r := orderedSum (floatFormat w) s.vectorRounding seed (body.map (v.elem geo w vs2.toNat))
        modify (State.commit geo d 0 (some r))
        if stop < hi then
          modify (State.setVstart stop)
          throw .wait
        modify (State.writeTail geo d 1)
      modify (State.setVstart 0)

/-- vfadd.vv (R146). -/
def execVfaddVv (vd vs2 vs1 : BitVec 5) (vm : BitVec 1) : State → Host.Outcome State Fault Refusal :=
  floatVector .add (fun _ => .vec vs1.toNat) vd vs2 vm

/-- vfadd.vf (R146). -/
def execVfaddVf (vd vs2 rs1 : BitVec 5) (vm : BitVec 1) : State → Host.Outcome State Fault Refusal :=
  floatVector .add (fun s => s.fOperand rs1) vd vs2 vm

/-- vfsub.vv (R146). -/
def execVfsubVv (vd vs2 vs1 : BitVec 5) (vm : BitVec 1) : State → Host.Outcome State Fault Refusal :=
  floatVector .sub (fun _ => .vec vs1.toNat) vd vs2 vm

/-- vfsub.vf (R146). -/
def execVfsubVf (vd vs2 rs1 : BitVec 5) (vm : BitVec 1) : State → Host.Outcome State Fault Refusal :=
  floatVector .sub (fun s => s.fOperand rs1) vd vs2 vm

/-- vfmul.vv (R146). -/
def execVfmulVv (vd vs2 vs1 : BitVec 5) (vm : BitVec 1) : State → Host.Outcome State Fault Refusal :=
  floatVector .mul (fun _ => .vec vs1.toNat) vd vs2 vm

/-- vfmul.vf (R146). -/
def execVfmulVf (vd vs2 rs1 : BitVec 5) (vm : BitVec 1) : State → Host.Outcome State Fault Refusal :=
  floatVector .mul (fun s => s.fOperand rs1) vd vs2 vm

/-- vfdiv.vv (R146). -/
def execVfdivVv (vd vs2 vs1 : BitVec 5) (vm : BitVec 1) : State → Host.Outcome State Fault Refusal :=
  floatVector .div (fun _ => .vec vs1.toNat) vd vs2 vm

/-- vfdiv.vf (R146). -/
def execVfdivVf (vd vs2 rs1 : BitVec 5) (vm : BitVec 1) : State → Host.Outcome State Fault Refusal :=
  floatVector .div (fun s => s.fOperand rs1) vd vs2 vm

/-- vfmin.vv (R146). -/
def execVfminVv (vd vs2 vs1 : BitVec 5) (vm : BitVec 1) : State → Host.Outcome State Fault Refusal :=
  floatVector .min (fun _ => .vec vs1.toNat) vd vs2 vm

/-- vfmin.vf (R146). -/
def execVfminVf (vd vs2 rs1 : BitVec 5) (vm : BitVec 1) : State → Host.Outcome State Fault Refusal :=
  floatVector .min (fun s => s.fOperand rs1) vd vs2 vm

/-- vfmax.vv (R146). -/
def execVfmaxVv (vd vs2 vs1 : BitVec 5) (vm : BitVec 1) : State → Host.Outcome State Fault Refusal :=
  floatVector .max (fun _ => .vec vs1.toNat) vd vs2 vm

/-- vfmax.vf (R146). -/
def execVfmaxVf (vd vs2 rs1 : BitVec 5) (vm : BitVec 1) : State → Host.Outcome State Fault Refusal :=
  floatVector .max (fun s => s.fOperand rs1) vd vs2 vm

/-- vfmacc.vv (R147). -/
def execVfmaccVv (vd vs2 vs1 : BitVec 5) (vm : BitVec 1) : State → Host.Outcome State Fault Refusal :=
  floatVector .macc (fun _ => .vec vs1.toNat) vd vs2 vm

/-- vfmacc.vf (R147). -/
def execVfmaccVf (vd vs2 rs1 : BitVec 5) (vm : BitVec 1) : State → Host.Outcome State Fault Refusal :=
  floatVector .macc (fun s => s.fOperand rs1) vd vs2 vm

/-- vfmsac.vv (R147). -/
def execVfmsacVv (vd vs2 vs1 : BitVec 5) (vm : BitVec 1) : State → Host.Outcome State Fault Refusal :=
  floatVector .msac (fun _ => .vec vs1.toNat) vd vs2 vm

/-- vfmsac.vf (R147). -/
def execVfmsacVf (vd vs2 rs1 : BitVec 5) (vm : BitVec 1) : State → Host.Outcome State Fault Refusal :=
  floatVector .msac (fun s => s.fOperand rs1) vd vs2 vm

/-- vfnmacc.vv (R147). -/
def execVfnmaccVv (vd vs2 vs1 : BitVec 5) (vm : BitVec 1) : State → Host.Outcome State Fault Refusal :=
  floatVector .nmacc (fun _ => .vec vs1.toNat) vd vs2 vm

/-- vfnmacc.vf (R147). -/
def execVfnmaccVf (vd vs2 rs1 : BitVec 5) (vm : BitVec 1) : State → Host.Outcome State Fault Refusal :=
  floatVector .nmacc (fun s => s.fOperand rs1) vd vs2 vm

/-- vfnmsac.vv (R147). -/
def execVfnmsacVv (vd vs2 vs1 : BitVec 5) (vm : BitVec 1) : State → Host.Outcome State Fault Refusal :=
  floatVector .nmsac (fun _ => .vec vs1.toNat) vd vs2 vm

/-- vfnmsac.vf (R147). -/
def execVfnmsacVf (vd vs2 rs1 : BitVec 5) (vm : BitVec 1) : State → Host.Outcome State Fault Refusal :=
  floatVector .nmsac (fun s => s.fOperand rs1) vd vs2 vm

/-- vfsgnj.vv (R148). -/
def execVfsgnjVv (vd vs2 vs1 : BitVec 5) (vm : BitVec 1) : State → Host.Outcome State Fault Refusal :=
  floatVector .sgnj (fun _ => .vec vs1.toNat) vd vs2 vm

/-- vfsgnj.vf (R148). -/
def execVfsgnjVf (vd vs2 rs1 : BitVec 5) (vm : BitVec 1) : State → Host.Outcome State Fault Refusal :=
  floatVector .sgnj (fun s => s.fOperand rs1) vd vs2 vm

/-- vfsgnjn.vv (R148). -/
def execVfsgnjnVv (vd vs2 vs1 : BitVec 5) (vm : BitVec 1) : State → Host.Outcome State Fault Refusal :=
  floatVector .sgnjn (fun _ => .vec vs1.toNat) vd vs2 vm

/-- vfsgnjn.vf (R148). -/
def execVfsgnjnVf (vd vs2 rs1 : BitVec 5) (vm : BitVec 1) : State → Host.Outcome State Fault Refusal :=
  floatVector .sgnjn (fun s => s.fOperand rs1) vd vs2 vm

/-- vftsum.vs: the fixed tree over element indices (R152). -/
def execVftsumVs (vd vs2 vs1 : BitVec 5) (vm : BitVec 1) : State → Host.Outcome State Fault Refusal :=
  floatReduce treeSum vd vs2 vs1 vm

/-- vfmin.vs (R154). -/
def execVfminVs (vd vs2 vs1 : BitVec 5) (vm : BitVec 1) : State → Host.Outcome State Fault Refusal :=
  floatReduce (fun f _ seed l => boundReduce f false seed (l.filterMap id)) vd vs2 vs1 vm

/-- vfmax.vs (R154). -/
def execVfmaxVs (vd vs2 vs1 : BitVec 5) (vm : BitVec 1) : State → Host.Outcome State Fault Refusal :=
  floatReduce (fun f _ seed l => boundReduce f true seed (l.filterMap id)) vd vs2 vs1 vm

/-- vfcmp.vv (R149). -/
def execVfcmpVv (cc : BitVec 3) (md : BitVec 2) (vs2 vs1 : BitVec 5) (vm : BitVec 1) : State → Host.Outcome State Fault Refusal :=
  floatCompareVector cc md (fun _ => .vec vs1.toNat) vs2 vm

/-- vfcmp.vf (R149). -/
def execVfcmpVf (cc : BitVec 3) (md : BitVec 2) (vs2 rs1 : BitVec 5) (vm : BitVec 1) : State → Host.Outcome State Fault Refusal :=
  floatCompareVector cc md (fun s => s.fOperand rs1) vs2 vm

/-- vfsqrt (R150). -/
def execVfsqrt (vd vs2 : BitVec 5) (vm : BitVec 1) : State → Host.Outcome State Fault Refusal :=
  unaryVector .sqrt vd vs2 vm

/-- vfclass (R150). -/
def execVfclass (vd vs2 : BitVec 5) (vm : BitVec 1) : State → Host.Outcome State Fault Refusal :=
  unaryVector .classify vd vs2 vm

/-- vfexp2 (R150). -/
def execVfexp2 (vd vs2 : BitVec 5) (vm : BitVec 1) : State → Host.Outcome State Fault Refusal :=
  unaryVector .exp2 vd vs2 vm

/-- vfrcp (R150). -/
def execVfrcp (vd vs2 : BitVec 5) (vm : BitVec 1) : State → Host.Outcome State Fault Refusal :=
  unaryVector .rcp vd vs2 vm

/-- vflog2 (R150). -/
def execVflog2 (vd vs2 : BitVec 5) (vm : BitVec 1) : State → Host.Outcome State Fault Refusal :=
  unaryVector .log2 vd vs2 vm

/-- vfwmacc.f16.vv (R151). -/
def execVfwmaccF16Vv (vd vs2 vs1 : BitVec 5) (vm : BitVec 1) : State → Host.Outcome State Fault Refusal :=
  floatWideVector fp16 (fun _ => .vec vs1.toNat) vd vs2 vm

/-- vfwmacc.f16.vf (R151). -/
def execVfwmaccF16Vf (vd vs2 rs1 : BitVec 5) (vm : BitVec 1) : State → Host.Outcome State Fault Refusal :=
  floatWideVector fp16 (fun s => s.fOperand rs1) vd vs2 vm

/-- vfwmacc.bf16.vv (R151). -/
def execVfwmaccBf16Vv (vd vs2 vs1 : BitVec 5) (vm : BitVec 1) : State → Host.Outcome State Fault Refusal :=
  floatWideVector bf16 (fun _ => .vec vs1.toNat) vd vs2 vm

/-- vfwmacc.bf16.vf (R151). -/
def execVfwmaccBf16Vf (vd vs2 rs1 : BitVec 5) (vm : BitVec 1) : State → Host.Outcome State Fault Refusal :=
  floatWideVector bf16 (fun s => s.fOperand rs1) vd vs2 vm

end Sys2Proof.Machine
end

