-- ==== Sys2Proof/Machine/Narrow.lean ====
section
/-! DEFINITION. The narrow and block-scaled formats (07_narrow_formats R155 to R175): custom-0 funct6 0x30 to 0x37. -/

namespace Sys2Proof.Machine

/-- vfcvt (R168, R169): the selector is legal at this SEW, and vd differs from vs2 unless both widths are the same. -/
def execVfcvt (vd vs2 sel : BitVec 5) (rf : BitVec 2) (vm : BitVec 1) : State → Host.Outcome State Fault Refusal :=
  vectorOp
    (fun s => maskOk vm vd.toNat && match convertFormats s.sew sel with
      | some (src, dst) => vd != vs2 || src.width == dst.width
      | none => false)
    (fun _ => vs2.toNat :: maskReads vm) (fun _ => [vd.toNat])
    fun s =>
      let v := s.core.vec
      let geo := v.geometry
      match convertFormats s.sew sel with
      | none => pure ()
      | some (src, dst) =>
        elementwise geo (.elems dst.width vd.toNat 1) fun i =>
          if v.active geo vm i then
            some (convert src dst (convertRounding rf v.cfg.frm v.seed (v.kstripbase + BitVec.ofNat 64 i))
              (v.elem geo src.width vs2.toNat i))
          else none

/-! ### Block formats -/

/-- KB8 or KB4: the width of a code and its magnitude bits P (R157). -/
structure BlockFormat where
  width : Nat
  p : Nat
deriving DecidableEq, Repr

/-- The block format a fmt bit names: 0 for KB8, 1 for KB4 (R170). -/
def blockFormat (fmt : BitVec 1) : BlockFormat := if fmt = 0 then ⟨8, 6⟩ else ⟨4, 2⟩

/-- The exponent of a step, E − 127 − (P − 1) (R157). -/
def BlockFormat.stepExp (k : BlockFormat) (e : Nat) : Int := (e : Int) - 127 - ((k.p : Int) - 1)

/-- mmax (R157). -/
def BlockFormat.mmax (k : BlockFormat) : Nat := 2 ^ k.p - 1

/-- A block is a NaN block (R157): one of its exponents, in the scale word {E_hi, E_lo}, is 0xFF. -/
def nanBlock (scale : Nat) : Bool := scale % 256 == 255 || scale / 256 == 255

/-- The value of a code under a scale word (R157). -/
def BlockFormat.value (k : BlockFormat) (scale code : Nat) : FVal :=
  if nanBlock scale then .nan false
  else
    let e := if code.testBit (k.p + 1) then scale / 256 else scale % 256
    .fin (code.testBit k.p) (code % 2 ^ k.p) (k.stepExp e)

/-- The scale word of block b, the 16-bit element b of v1 (R158). -/
def VecState.scale (v : VecState) (geo : Geometry) (b : Nat) : Nat := v.elem geo 16 1 b

/-- m × 2^e ≤ n × 2^q, exactly. -/
def atMost (m : Nat) (e : Int) (n : Nat) (q : Int) : Bool :=
  let e0 := min e q
  decide (m * 2 ^ (e - e0).toNat ≤ n * 2 ^ (q - e0).toNat)

/-- The magnitude of a finite value. -/
def FVal.magnitude : FVal → Nat × Int
  | .fin _ m e => (m, e)
  | _ => (0, 0)

/-- The larger of two magnitudes. -/
def largerMagnitude (a b : Nat × Int) : Nat × Int := if atMost a.1 a.2 b.1 b.2 then b else a

/-- E_hi of a block whose largest magnitude is given (R170). -/
def BlockFormat.highExp (k : BlockFormat) (big : Nat × Int) : Nat :=
  if big.1 = 0 then 0
  else
    let e : Int := bitLength big.1 - 1 + big.2
    let x : Int := if atMost big.1 big.2 k.mmax (e - (k.p - 1)) then e + 127 else e + 128
    (min (max x 0) 254).toNat

/-- One code of a block (R170): its selector, sign and magnitude, and its flags. The selector is the pseudocode's also where
the two exponents are equal and E_hi is clamped; and where a clamped E_hi leaves a magnitude between mmax and mmax + 1 that
stochastic rounding does not round up, OF is not raised, as the pseudocode has it, though R163 raises OF whenever a value exceeds
the largest (both DESIGN CHOICE, log entry 66). -/
def BlockFormat.encode (k : BlockFormat) (r : Rounding) (ehi elo : Nat) (x : FVal) : Nat × Flags :=
  let (m, e) := x.magnitude
  let sel := !atMost m e k.mmax (k.stepExp elo)
  let (q, inexact) := roundTo r false ⟨m, e, false⟩ (k.stepExp (if sel then ehi else elo))
  let exceeds := decide (k.mmax < q)
  let q' := min q k.mmax
  ((if sel then 2 ^ (k.p + 1) else 0) + (if x.neg then 2 ^ k.p else 0) + q',
    flagIf exceeds (flagOF ||| flagNX) ||| flagIf inexact flagNX ||| flagIf (m != 0 && q' == 0) flagUF)

/-- A block of sixteen values quantised (R170): its scale word, its codes and its flags. -/
def BlockFormat.quantise (k : BlockFormat) (delta : Nat) (r : Nat → Rounding) (xs : List FVal) :
    Nat × List Nat × Flags :=
  if xs.any fun x => x.isNan || x.isInf then
    (0xFFFF, xs.map fun _ => 0, flagIf (xs.any fun x => x.isSnan || x.isInf) flagNV)
  else
    let ehi := k.highExp ((xs.map FVal.magnitude).foldl largerMagnitude (0, 0))
    let elo := ehi - delta
    let out := xs.mapIdx fun j x => k.encode (r j) ehi elo x
    (ehi * 256 + elo, out.map (·.1), out.foldl (fun fl c => fl ||| c.2) 0)

/-- The blocks that kvl elements reach. -/
def State.blocks (s : State) : Nat := (s.vl + 15) / 16

/-- vbq: quantises every block up to kvl, the last one padded with +0 (R170). -/
def execVbq (vd vs2 : BitVec 5) (sr fmt : BitVec 1) : State → Host.Outcome State Fault Refusal :=
  vectorOp (fun s => s.floatSew && vd != 1 && vs2 != 1 && vd != vs2) (fun _ => [vs2.toNat]) (fun _ => [vd.toNat, 1])
    fun s => do
      let v := s.core.vec
      let geo := v.geometry
      let w := s.sew
      let k := blockFormat fmt
      let value (i : Nat) : FVal :=
        if i < s.vl then (floatFormat w).value (v.elem geo w vs2.toNat i) else .fin false 0 0
      let rounding (i : Nat) : Rounding :=
        if sr = 0 then .rne else .sr (stochastic v.seed (v.kstripbase + BitVec.ofNat 64 i))
      let out := (List.range s.blocks).map fun b =>
        k.quantise v.bqDelta.toNat (fun j => rounding (16 * b + j)) ((List.range 16).map fun j => value (16 * b + j))
      let codes := out.flatMap (·.2.1)
      modify (State.raiseVector (out.foldl (fun fl c => fl ||| c.2.2) 0))
      wholesale geo (.elems 16 1 1) s.blocks fun b => some ((out.getD b (0, [], 0)).1, 0)
      wholesale geo (.elems k.width vd.toNat 1) (16 * s.blocks) fun i => some (codes.getD i 0, 0)

/-- vbdq: expands blocks at SEW (R171). -/
def execVbdq (vd vs2 : BitVec 5) (fmt vm : BitVec 1) : State → Host.Outcome State Fault Refusal :=
  vectorOp (fun s => s.floatSew && maskOk vm vd.toNat && vd != 1 && vs2 != 1 && vd != vs2)
    (fun _ => [vs2.toNat, 1] ++ maskReads vm) (fun _ => [vd.toNat])
    fun s =>
      let v := s.core.vec
      let geo := v.geometry
      let k := blockFormat fmt
      elementwise geo (.elems s.sew vd.toNat 1) fun i =>
        if v.active geo vm i then
          some ((floatFormat s.sew).rnd s.vectorRounding
            (k.value (v.scale geo (i / 16)) (v.elem geo k.width vs2.toNat i)))
        else none

/-- vscl: moves scales into v1 (R172). -/
def execVscl (vs2 : BitVec 5) : State → Host.Outcome State Fault Refusal :=
  vectorOp (fun _ => vs2 != 1) (fun _ => [vs2.toNat]) (fun _ => [1])
    fun s =>
      let v := s.core.vec
      let geo := v.geometry
      wholesale geo (.elems 16 1 1) s.blocks fun b => some (v.elem geo 16 vs2.toNat b, 0)

/-- vscl.vx: one scale for every block (R172). -/
def execVsclVx (rs1 : BitVec 5) : State → Host.Outcome State Fault Refusal :=
  vectorOp (fun _ => true) (fun _ => []) (fun _ => [1])
    fun s => wholesale s.core.vec.geometry (.elems 16 1 1) s.blocks fun _ => some ((s.x rs1).toNat % 65536, 0)

/-- Writes kseed; reserved bits are dropped (R159, R173). -/
def VecState.setSeed (w : Word) (v : VecState) : VecState :=
  { v with seed := w.extractLsb' 0 32, bqDelta := w.extractLsb' 32 4 }

/-- vseed (R173). -/
def execVseed (rs1 : BitVec 5) : State → Host.Outcome State Fault Refusal :=
  vectorOp (fun _ => true) (fun _ => []) (fun _ => [])
    fun s => modify fun t => (t.mapVec (VecState.setSeed (s.x rs1))).setVstart 0

/-- vsbase (R173). -/
def execVsbase (rs1 : BitVec 5) : State → Host.Outcome State Fault Refusal :=
  vectorOp (fun _ => true) (fun _ => []) (fun _ => [])
    fun s => modify fun t => (t.mapVec fun v => { v with kstripbase := s.x rs1 }).setVstart 0

/-- The node of one block in vfredbs (R174): absent without an active element, the canonical NaN for a NaN block, else
its exact sum rounded once. -/
def blockNode (r : Rounding) (k : BlockFormat) (scale : Nat) (codes : List Nat) : Option Nat × Flags :=
  if codes.isEmpty then (none, 0)
  else let (x, fl) := fp32.sum r (codes.map (k.value scale)); (some x, fl)

/-- The active elements of block b below kvl. -/
def VecState.blockActive (v : VecState) (geo : Geometry) (vm : BitVec 1) (hi b : Nat) : List Nat :=
  ((List.range 16).map (16 * b + ·)).filter fun i => i < hi && v.active geo vm i

/-- vfredbs: block sums, added pairwise by block index to element 0 of vd at width 32 (R174). -/
def execVfredbs (vd vs2 : BitVec 5) (fmt vm : BitVec 1) : State → Host.Outcome State Fault Refusal :=
  vectorOp (fun s => s.sew == 8 && vd != 1 && vs2 != 1 && vd != vs2)
    (fun _ => [vs2.toNat, 1, vd.toNat] ++ maskReads vm) (fun _ => [vd.toNat])
    fun s => do
      let v := s.core.vec
      let geo := v.geometry
      let k := blockFormat fmt
      let r := s.vectorRounding
      let nodes := (List.range s.blocks).map fun b =>
        blockNode r k (v.scale geo b) ((v.blockActive geo vm s.vl b).map (v.elem geo k.width vs2.toNat))
      let (x, fl) := treeSum fp32 r (v.elem geo 32 vd.toNat 0) (nodes.map (·.1))
      let flags := nodes.foldl (fun fl n => fl ||| n.2) fl
      wholesale geo (.elems 32 vd.toNat 1) 1 fun _ => some (x, flags)

/-- One block of vfwdotbs (R175): the exact sum of its active products and vd's element, rounded once. -/
def blockDot (r : Rounding) (acc : FVal) (pairs : List (FVal × FVal)) : Nat × Flags :=
  let products := pairs.map fun p => p.1.times p.2
  fp32.sum r (products.filterMap id ++ [acc]) (products.any Option.isNone)

/-- vfwdotbs: KB weights times FP8 activations, one FP32 sum for each block (R175). Of several empty sources v1 is reported after vs2
and vs1 and before vd (DESIGN CHOICE, log entry 29). -/
def execVfwdotbs (vd vs2 vs1 : BitVec 5) (wf af vm : BitVec 1) : State → Host.Outcome State Fault Refusal :=
  vectorOp
    (fun s => s.sew == 8 && maskOk vm vd.toNat && vd != 1 && vs2 != 1 && vs1 != 1 && vd != vs2 && vd != vs1)
    (fun _ => [vs2.toNat, vs1.toNat, 1, vd.toNat] ++ maskReads vm) (fun _ => [vd.toNat])
    fun s =>
      let v := s.core.vec
      let geo := v.geometry
      let k := blockFormat wf
      let f := if af = 0 then e4m3 else e5m2
      wholesale geo (.elems 32 vd.toNat 1) s.blocks fun b =>
        match v.blockActive geo vm s.vl b with
        | [] => none
        | l => some (blockDot s.vectorRounding (fp32.value (v.elem geo 32 vd.toNat b))
            (l.map fun i => (k.value (v.scale geo b) (v.elem geo k.width vs2.toNat i), f.value (v.elem geo 8 vs1.toNat i))))

end Sys2Proof.Machine
end

