-- ==== Sys2Proof/Machine/VecMem.lean ====
section
/-! DEFINITION. The vector memory instructions (09_vector_memory R200 to R220): custom-1 modes 0b000 to 0b110. -/

namespace Sys2Proof.Machine

/-- The class a hint names; hint 0b11 acts as normal (R35, R179). -/
def hintClass (hint : BitVec 2) : LineClass :=
  match hint with
  | 1 => .stream
  | 2 => .keep
  | _ => .normal

/-- A must-understand hint that is not implemented raises cause 2 (R35, R210). -/
def hintOk (mu : BitVec 1) (hint : BitVec 2) : Bool := !(mu == 1 && hint == 3)

/-- An element width of a KM word in bits (R205). -/
def widthOf (w : BitVec 2) : Nat := 8 * 2 ^ w.toNat

/-- Runs an access of one element: a trap records the element in kvstart (R207). -/
def atElement (i : Nat) (m : Exec α) : Exec α := fun s =>
  match m s with
  | .error (.trap c t) s' => .error (.trap c t) (s'.setVstart i)
  | r => r

/-- Runs the accesses of `n` elements from `i` up, in element order (R207). -/
def forElements (body : Nat → Exec Unit) : Nat → Nat → Exec Unit
  | 0, _ => pure ()
  | n + 1, i => do
    atElement i (body i)
    forElements body n (i + 1)

/-- The elements of an indexed or 2D access, as the VMU's page-sorting unit sees them: the address space, what the access does, how
many elements the instruction has, and the address of each that is translated, an active and aligned one (R187). -/
structure PageSort where
  space : Space
  acc : Acc
  limit : Nat
  addr : Nat → Option Word

/-- The pages of a batch, with the faults that its walk found (R187). -/
abbrev PageBatch := List (Nat × Option XFault)

/-- The virtual page of an address, by which elements are grouped (R183, R187). A leaf of 512 MiB counts as the 64 KiB pages that
lie in it (DESIGN CHOICE, log entry 91). -/
def virtualPage (va : Word) : Nat := va.toNat / 65536

/-- The addresses that bring the pages of a batch: of the elements from `i` up, the first of each of up to 64 distinct pages
(R187). -/
def PageSort.batchFrom (p : PageSort) (i : Nat) : List Word :=
  ((List.range' i (p.limit - i)).filterMap p.addr).foldl (fun l a =>
    if 64 ≤ l.length || l.any (fun b => virtualPage b == virtualPage a) then l else l ++ [a]) []

/-- The fault that a walk finds for an address. -/
def State.walkFault (s : State) (sp : Space) (acc : Acc) (va : Word) : Option XFault :=
  match s.resolve sp acc va with | .ok _ => none | .error x => some x

/-- A batch begins at element `i`: its pages are translated, and the faults found are kept for the elements they concern (R187). -/
def PageSort.start (p : PageSort) (i : Nat) : Exec PageBatch := do
  let s ← get
  let vas := p.batchFrom i
  set (s.sortPages p.space p.acc vas)
  return vas.map fun va => (virtualPage va, s.walkFault p.space p.acc va)

/-- The batch in which element `i` is performed: a new one where no page of the present one is the element's. A fault that its walk
has found is the element's, so that faults are reported in element order (R187). -/
def PageSort.enter (p : PageSort) (i : Nat) (b : PageBatch) : Exec PageBatch :=
  match p.addr i with
  | none => return b
  | some a => do
    let b ← if b.any fun q => q.1 == virtualPage a then pure b else p.start i
    match (b.find? fun q => q.1 == virtualPage a).bind (·.2) with
    | some x => raise (x.cause p.acc) a
    | none => return b

/-- Runs the accesses of `n` elements from `i` up, in element order, within the batches of their pages (R187, R207). -/
def forPages (p : PageSort) (body : Nat → Exec Unit) : Nat → Nat → PageBatch → Exec Unit
  | 0, _, _ => pure ()
  | n + 1, i, b => do
    let b ← atElement i do
      let b ← p.enter i b
      body i
      return b
    forPages p body n (i + 1) b

/-- A load of the VMU by the core in focus (R207): alignment, translation, race check, and the bytes. -/
def vmuLoad (sp : Space) (mark : PageMark) (hint : LineClass) (a : Word) (n : Nat) : Exec Nat := do
  if a.toNat % n ≠ 0 then raise 4 a
  let x ← translate sp .load mark a
  readAt (← get).core.id x a n hint

/-- A store of the VMU (R207), which also drops the line from the core's data cache (R202). -/
def vmuStore (sp : Space) (mark : PageMark) (hint : LineClass) (a : Word) (n v : Nat) : Exec Unit := do
  if a.toNat % n ≠ 0 then raise 6 a
  let x ← translate sp .store mark a
  writeAt (← get).core.id x a n v hint
  modify (State.mapCore (Core.dropData x.pa))

/-- Marks registers empty and notes that a load will make them full (R201). -/
def State.markEmpty (rs : List Nat) (s : State) : State :=
  let m : BitVec 32 := rs.foldl (fun m r => m ||| (1#32 <<< r)) 0
  s.mapVec fun v => { v with full := v.full &&& ~~~m, inFlight := v.inFlight ++ [m] }

/-- A load waits in qm until ql, which holds 32, has room for it (R54, R200). -/
def awaitLoadQueue : Exec Unit := do
  let s ← get
  awaitLoads (s.loadsInFlight < 32)

/-- A vector load or store of kvl elements: what differs from one family to the next (R206, R213). -/
structure VectorAccess where
  load : Bool
  /-- element width in bits -/
  w : Nat
  /-- the first data register -/
  data : Nat
  /-- the index register -/
  index : Option Nat
  /-- addr(i), from the state as the instruction begins -/
  addr : State → Nat → Word
  /-- the shape check of a 2D access -/
  shapeOk : State → Bool
  mark : PageMark
  hint : LineClass
  /-- an indexed or 2D access, whose pages are sorted (R187) -/
  sorted : Bool

/-- The data group (R205). -/
def VectorAccess.group (a : VectorAccess) (sew : Nat) : List Nat :=
  (List.range (max 1 (a.w / sew))).map (a.data + ·)

/-- The register checks of R213. -/
def VectorAccess.registersOk (a : VectorAccess) (s : State) (vm : BitVec 1) : Bool :=
  let group := a.group s.sew
  s.namesOk (group ++ a.index.toList) && a.data % group.length == 0 &&
    (!a.load || (maskOk vm a.data && a.index.all fun r => !group.contains r))

/-- One active element (R207). -/
def VectorAccess.element (a : VectorAccess) (s0 : State) (i : Nat) : Exec Unit := do
  let v := s0.core.vec
  let geo := v.geometry
  if a.load then
    let x ← vmuLoad s0.vmuSpace a.mark a.hint (a.addr s0 i) (a.w / 8)
    modify (State.mapVec fun v => v.putElem geo a.w a.data i x)
  else vmuStore s0.vmuSpace a.mark a.hint (a.addr s0 i) (a.w / 8) (v.elem geo a.w a.data i)

/-- The address of an element of an indexed or 2D access that is translated: an active and aligned one (R187, R207). -/
def sortedAddr (geo : Geometry) (v : VecState) (vm : BitVec 1) (n : Nat) (addr : Nat → Word) (i : Nat) : Option Word :=
  if v.active geo vm i && (addr i).toNat % n == 0 then some (addr i) else none

/-- The active ones of `n` elements from `lo` up of a vector load or store begun in a state (R187, R207). -/
def VectorAccess.elements (a : VectorAccess) (s : State) (vm : BitVec 1) (n lo : Nat) : Exec Unit :=
  let v := s.core.vec
  let body (i : Nat) : Exec Unit := if v.active v.geometry vm i then a.element s i else pure ()
  if a.sorted then
    forPages ⟨s.vmuSpace, if a.load then .load else .store, s.vl, sortedAddr v.geometry v vm (a.w / 8) (a.addr s)⟩ body n lo []
  else forElements body n lo

/-- The accesses of a vector load or store once every check is passed (R207, R208): the body up to the point of an
interruption, and for a load its tail and the marking of its group. -/
def VectorAccess.perform (a : VectorAccess) (vm : BitVec 1) : Exec Unit := do
  let s ← get
  let v := s.core.vec
  let geo := v.geometry
  let group := a.group s.sew
  let lo := s.vstart
  let hi := s.vl
  let stop := s.stopPoint geo lo hi
  a.elements s vm (stop - lo) lo
  if stop < hi then
    modify (State.setVstart stop)
    throw .wait
  if a.load then
    modify fun s => (s.writeTail geo (.elems a.w a.data group.length) hi).markEmpty group
  modify (State.setVstart 0)

/-- A vector load or store (R207, R208, R213). Of several empty registers whose kvfe bit is one, the first of the index, the data
group of a store and v0 gives stval (DESIGN CHOICE, log entry 29). -/
def vectorMemory (ok : Bool) (a : VectorAccess) (vm : BitVec 1) : State → Host.Outcome State Fault Refusal :=
  retiring do
    let s ← get
    require (ok && a.registersOk s vm)
    checkLaneChange
    checkMode .vector
    require (a.shapeOk s)
    if s.vl ≤ s.vstart then modify (State.setVstart 0)
    else
      let group := a.group s.sew
      checkFull (a.index.toList ++ (if a.load then [] else group) ++ maskReads vm) group
      if a.load then awaitLoadQueue
      a.perform vm

/-- addr(i) of a unit-stride access (R206). -/
def unitAddr (rs1 : BitVec 5) (w : Nat) (s : State) (i : Nat) : Word := s.x rs1 + BitVec.ofNat 64 (i * (w / 8))

/-- addr(i) of a strided access (R206, R217). -/
def stridedAddr (rs1 rs2 : BitVec 5) (s : State) (i : Nat) : Word := s.x rs1 + BitVec.ofNat 64 i * s.x rs2

/-- addr(i) of an indexed access (R206, R218). -/
def indexedAddr (rs1 vs2 : BitVec 5) (s : State) (i : Nat) : Word :=
  let v := s.core.vec
  s.x rs1 + BitVec.ofNat 64 (v.elem v.geometry s.sew vs2.toNat i)

/-- The columns C of a 2D tile (R212). -/
def State.tileColumns (s : State) : Nat := s.vl / s.core.vec.rows.toNat

/-- addr(i) of a 2D access (R206, R211). -/
def tileAddr (rs1 : BitVec 5) (w : Nat) (s : State) (i : Nat) : Word :=
  let c := s.tileColumns
  s.x rs1 + BitVec.ofNat 64 (i / c) * s.core.vec.pitch.signExtend 64 + BitVec.ofNat 64 (i % c * (w / 8))

/-- The shape check of a 2D access (R212). -/
def tileShapeOk (s : State) : Bool :=
  let rows := s.core.vec.rows.toNat
  rows != 0 && s.vl % rows == 0

/-- The page mark of a unit-stride access (R210). -/
def unitMark (hint : BitVec 2) : PageMark := if hint = 1 then .stream else .none

/-- vle (R216). -/
def execVleE (mu : BitVec 1) (hint : BitVec 2) (vd rs1 : BitVec 5) (w : BitVec 2) (vm : BitVec 1) :
    State → Host.Outcome State Fault Refusal :=
  vectorMemory (hintOk mu hint)
    ⟨true, widthOf w, vd.toNat, none, unitAddr rs1 (widthOf w), fun _ => true, unitMark hint, hintClass hint, false⟩ vm

/-- vse (R216). -/
def execVseE (mu : BitVec 1) (hint : BitVec 2) (vs3 rs1 : BitVec 5) (w : BitVec 2) (vm : BitVec 1) :
    State → Host.Outcome State Fault Refusal :=
  vectorMemory (hintOk mu hint)
    ⟨false, widthOf w, vs3.toNat, none, unitAddr rs1 (widthOf w), fun _ => true, unitMark hint, hintClass hint, false⟩ vm

/-- vlse (R217). -/
def execVlseE (mu : BitVec 1) (hint : BitVec 2) (vd rs1 rs2 : BitVec 5) (w : BitVec 2) (vm : BitVec 1) :
    State → Host.Outcome State Fault Refusal :=
  vectorMemory (hintOk mu hint)
    ⟨true, widthOf w, vd.toNat, none, stridedAddr rs1 rs2, fun _ => true, .none, hintClass hint, false⟩ vm

/-- vsse (R217). -/
def execVsseE (mu : BitVec 1) (hint : BitVec 2) (vs3 rs1 rs2 : BitVec 5) (w : BitVec 2) (vm : BitVec 1) :
    State → Host.Outcome State Fault Refusal :=
  vectorMemory (hintOk mu hint)
    ⟨false, widthOf w, vs3.toNat, none, stridedAddr rs1 rs2, fun _ => true, .none, hintClass hint, false⟩ vm

/-- vlxe (R218). -/
def execVlxeE (mu : BitVec 1) (hint : BitVec 2) (vd rs1 vs2 : BitVec 5) (w : BitVec 2) (vm : BitVec 1) :
    State → Host.Outcome State Fault Refusal :=
  vectorMemory (hintOk mu hint)
    ⟨true, widthOf w, vd.toNat, some vs2.toNat, indexedAddr rs1 vs2, fun _ => true, .gather, hintClass hint, true⟩ vm

/-- vsxe (R218). -/
def execVsxeE (mu : BitVec 1) (hint : BitVec 2) (vs3 rs1 vs2 : BitVec 5) (w : BitVec 2) (vm : BitVec 1) :
    State → Host.Outcome State Fault Refusal :=
  vectorMemory (hintOk mu hint)
    ⟨false, widthOf w, vs3.toNat, some vs2.toNat, indexedAddr rs1 vs2, fun _ => true, .gather, hintClass hint, true⟩ vm

/-- vlt2 (R212, R219). -/
def execVlt2E (mu : BitVec 1) (hint : BitVec 2) (vd rs1 : BitVec 5) (w : BitVec 2) (vm : BitVec 1) :
    State → Host.Outcome State Fault Refusal :=
  vectorMemory (hintOk mu hint)
    ⟨true, widthOf w, vd.toNat, none, tileAddr rs1 (widthOf w), tileShapeOk, .none, hintClass hint, true⟩ vm

/-- vst2 (R212, R219). -/
def execVst2E (mu : BitVec 1) (hint : BitVec 2) (vs3 rs1 : BitVec 5) (w : BitVec 2) (vm : BitVec 1) :
    State → Host.Outcome State Fault Refusal :=
  vectorMemory (hintOk mu hint)
    ⟨false, widthOf w, vs3.toNat, none, tileAddr rs1 (widthOf w), tileShapeOk, .none, hintClass hint, true⟩ vm

/-- The geometry over every lane in service, gated ones included (R220). -/
def VecState.wholeGeometry (v : VecState) : Geometry := { v.geometry with g := lanesInService v.laneMap }

/-- One 64-bit unit of a whole-register access (R220). -/
def wholeUnit (load : Bool) (reg : Nat) (rs1 : BitVec 5) (hint : LineClass) (s0 : State) (j : Nat) : Exec Unit := do
  let geo := s0.core.vec.wholeGeometry
  let a := s0.x rs1 + BitVec.ofNat 64 (8 * j)
  if load then
    let x ← vmuLoad s0.vmuSpace .none hint a 8
    modify (State.mapVec fun v => v.putElem geo 64 reg j x)
  else vmuStore s0.vmuSpace .none hint a 8 (s0.core.vec.elem geo 64 reg j)

/-- vlr and vsr: one whole register in every lane in service (R220). -/
def wholeRegister (ok load : Bool) (reg : Nat) (rs1 : BitVec 5) (hint : LineClass) :
    State → Host.Outcome State Fault Refusal :=
  retiring do
    let s ← get
    require (ok && s.namesOk [reg])
    checkLaneChange
    checkMode .vector
    checkFull (if load then [] else [reg]) [reg]
    if load then awaitLoadQueue
    let lo := s.vstart
    let hi := s.lanes * 256 / s.nreg
    let stop := s.stopPoint s.core.vec.wholeGeometry lo hi
    forElements (wholeUnit load reg rs1 hint s) (stop - lo) lo
    if stop < hi then
      modify (State.setVstart stop)
      throw .wait
    if load then modify (State.markEmpty [reg])
    modify (State.setVstart 0)

/-- vlr (R220). -/
def execVlr (mu : BitVec 1) (hint : BitVec 2) (vd rs1 : BitVec 5) : State → Host.Outcome State Fault Refusal :=
  wholeRegister (hintOk mu hint) true vd.toNat rs1 (hintClass hint)

/-- vsr (R220). -/
def execVsr (mu : BitVec 1) (hint : BitVec 2) (vs3 rs1 : BitVec 5) : State → Host.Outcome State Fault Refusal :=
  wholeRegister (hintOk mu hint) false vs3.toNat rs1 (hintClass hint)

/-- The last element of a load in flight has landed: its registers become full (R201). -/
def VecState.land (n : Nat) (v : VecState) : VecState :=
  match v.inFlight[n]? with
  | none => v
  | some m => { v with full := v.full ||| m, inFlight := v.inFlight.eraseIdx n }

/-- LOAD_LANDED (R201). -/
def execLoadLanded (core index : Nat) (s : State) : Host.Outcome State Fault Refusal :=
  .next (if core < coreCount then s.updCore core fun c => { c with vec := c.vec.land index } else s)

end Sys2Proof.Machine
end

