-- ==== Sys2Proof/Machine/Matrix.lean ====
section
/-! DEFINITION. Lane modes, tiles, the operand store and the matrix instructions (10_matrix R221 to R248): custom-2
funct3 0b000 to 0b010. -/

namespace Sys2Proof.Machine

/-! ### Tiles -/

/-- The byte of a tile's region in a lane's slice: the tile store is the top quarter (R224). -/
def tileBase (tile : Nat) : Nat := 1536 + 256 * tile

/-- The first register of the tile store (R224). -/
def State.tileStore (s : State) : Nat := 3 * s.nreg / 4

/-- The registers of a tile, as bits of kvdirty (R224, R338). -/
def tileRegs (n tile : Nat) : BitVec 32 :=
  (List.range (n / 8)).foldl (fun m i => m ||| (1#32 <<< (3 * n / 4 + tile * (n / 8) + i))) 0

/-- Where the words of a tile lie: the intact lane-rows and the lanes in service (R226). -/
structure TileMap where
  rows : List Nat
  lanes : List Nat

/-- The tile map of a lane map. -/
def tileMap (map : BitVec 128) : TileMap := ⟨intactRows map, lanePositions map⟩

/-- kmrows of a tile map. -/
def TileMap.kmrows (t : TileMap) : Nat := 8 * t.rows.length

/-- The lane of a tile word, in array layout where `skewed` (R226). -/
def TileMap.lane (t : TileMap) (skewed : Bool) (r c : Nat) : Nat :=
  if skewed then 8 * t.rows.getD (r / 8) 0 + c / 8 else t.lanes.getD r 0

/-- The 32-bit slot of a tile word in its lane's tile region (R226). -/
def tileSlot (skewed : Bool) (r c : Nat) : Nat :=
  if skewed then 8 * (r % 8) + (c % 8 + r % 8) % 8 else c

/-- T[r][c] (R226). -/
def VecState.tileWord (v : VecState) (tm : TileMap) (skewed : Bool) (tile r c : Nat) : Nat :=
  (v.slice (tm.lane skewed r c)).read (tileBase tile + 4 * tileSlot skewed r c) 4

/-- Writes T[r][c]. -/
def VecState.putTile (v : VecState) (tm : TileMap) (skewed : Bool) (tile r c val : Nat) : VecState :=
  let l := tm.lane skewed r c
  { v with vrf := v.vrf.setIfInBounds l ((v.slice l).write (tileBase tile + 4 * tileSlot skewed r c) 4 val) }

/-- Marks a tile's registers dirty (R338). -/
def VecState.dirtyTile (v : VecState) (tile : Nat) : VecState :=
  { v with kvdirty := v.kvdirty ||| tileRegs (nregOf v.cfg.nreg) tile }

/-- The rows and columns of a rectangle, row by row. -/
def cells (rows cols : Nat) : List (Nat × Nat) :=
  (List.range rows).flatMap fun r => (List.range cols).map fun c => (r, c)

/-- A tile with every lane's region zero (R242). -/
def VecState.zeroTile (v : VecState) (tile : Nat) : VecState :=
  { v with vrf := v.vrf.map fun (m : ByteMap) => m.clear (tileBase tile) 256 }.dirtyTile tile

/-- A tile rewritten from one layout to the other (R226): in vector layout the lanes from kmrows up hold zero. -/
def VecState.relayTile (v : VecState) (skewed : Bool) (tile : Nat) : VecState :=
  let tm := tileMap v.laneMap
  let words := (cells tm.kmrows 64).map fun rc => (rc, v.tileWord tm skewed tile rc.1 rc.2)
  let base := if skewed then v.zeroTile tile else v
  (words.foldl (fun v w => v.putTile tm (!skewed) tile w.1.1 w.1.2 w.2) base).dirtyTile tile

/-- The skew flag of a tile. -/
def MatState.skewed (m : MatState) (tile : Nat) : Bool := if tile = 0 then m.sk0 else m.sk1

/-- Sets the skew flag of a tile. -/
def MatState.setSkew (m : MatState) (tile : Nat) (b : Bool) : MatState :=
  if tile = 0 then { m with sk0 := b } else { m with sk1 := b }

/-- Rewrites a tile in the other layout where it is not in the one asked for; matrix state becomes dirty (R225, R226). -/
def State.layTile (tile : Nat) (skewed : Bool) (s : State) : State :=
  if s.core.mat.skewed tile = skewed then s
  else (s.mapVec fun v => v.relayTile (!skewed) tile).mapMat fun m => { m.setSkew tile skewed with ts := .dirty }

/-! ### Lane modes -/

/-- The load a lane mode puts on a core beyond its dispatch, with P lanes powered (R355). -/
def modeLoad (m : LaneMode) (powered : Nat) : Nat := modeCost m + laneCharge * (powered - 1)

/-- The lanes powered once a switch has ended: every lane in service, or G in vector mode (R223, R355). -/
def State.poweredIn (s : State) (m : LaneMode) : Nat :=
  match m with
  | .vector => max 1 s.core.vec.cfg.g
  | _ => s.lanes

/-- The charge of a switch's target mode, or the release of what it no longer draws (R221, R355, R358). -/
def chargeMode (t : LaneMode) : Exec Unit := do
  let s ← get
  let core := s.core.id
  let old := modeLoad s.core.mat.mode s.core.power.powered
  let new := modeLoad t (s.poweredIn t)
  if old < new then
    if s.corePinned core then pinnedCharge (new - old) else awaitCharge (.instruction core) (new - old)
  else modify (State.releaseLoad core (old - new) .load)
  modify (State.mapCore fun k =>
    { k with power := { k.power with modeCharge := modeCost t, powered := s.poweredIn t } })

/-- The drain of a switch completes (R221, R222): the loads into the tile store have landed, every micro-thread is
Stopped, and the target's charge is paid; the lanes are then being rewired. -/
def drainMode (t : LaneMode) : Exec Unit := do
  let s ← get
  awaitLoads ((List.range s.nreg).all fun r => r < s.tileStore || s.isFull r)
  if s.core.mat.mode = .threaded && s.core.mt.threads.any (fun x => x.2.state != .stopped) then raise 25 1
  chargeMode t
  modify (State.mapMat fun m => { m with phase := .switching t })

/-- The switch completes (R221, R222, R225, R250): leaving matrix mode unskews the tiles and disarms the weights;
entering threaded mode empties every queue, and the block buffers too, of which R250 and R254 do not speak (DESIGN CHOICE, log
entry 87). -/
def State.switchMode (t : LaneMode) (s : State) : State :=
  let s := if s.core.mat.mode = .matrix then
      let s := (s.layTile 0 false).layTile 1 false
      s.mapMat fun m => { m with wv := false, ts := if m.wv then .dirty else m.ts }
    else s
  s.mapCore fun c => { c with
    mat := { c.mat with mode := t, phase := .none }
    mt := if t = .threaded then ThreadsState.reset else c.mt }

/-- The mode an lmode names (R237). -/
def laneModeOf (mode : BitVec 5) : LaneMode :=
  match mode with
  | 0 => .vector
  | 1 => .threaded
  | _ => .matrix

/-- lmode (R221, R222): a switch to the mode in force does nothing; in maquette service one to threaded or
matrix mode raises cause 25 (R383). -/
def execLmode (mode : BitVec 5) : State → Host.Outcome State Fault Refusal :=
  retiring do
    require (mode.toNat ≤ 2)
    let t := laneModeOf mode
    let s ← get
    if s.core.mat.mode ≠ t then
      if s.dev.service = .maquette && t != .vector then raise 25 2
      enterQv
      match s.core.mat.phase with
      | .switching _ => pure ()
      | _ =>
        modify (State.mapMat fun m => { m with phase := .draining t })
        drainMode t
      modify (State.switchMode t)

/-- The drain of the core in focus completes where it may; a request that has come goes first (R222). -/
def State.endDrain (s : State) : State :=
  match s.core.mat.phase, s.enabledInterrupt with
  | .draining t, none => s.after (drainMode t)
  | _, _ => s

/-- LMODE_DRAINED (R222), at a core that no fatal error has stopped (R380). -/
def execLmodeDrained (core : Nat) (s : State) : Host.Outcome State Fault Refusal :=
  .next (if s.runs core then s.onCore core State.endDrain else s)

/-- The switch of the core in focus completes, and its `lmode` with it: a request held since is taken after the `lmode`
(R221, R222). -/
def State.endSwitch (s : State) : State :=
  match s.core.mat.phase with
  | .switching t => (s.switchMode t).retire
  | _ => s

/-- LMODE_SWITCH_DONE (R222), at a core that no fatal error has stopped (R380). -/
def execLmodeSwitchDone (core : Nat) (s : State) : Host.Outcome State Fault Refusal :=
  .next (if s.runs core then s.onCore core State.endSwitch else s)

/-! ### The operand store -/

/-- The state of a slot. -/
def MatState.slot (m : MatState) (os : Nat) : SlotState := m.slots[os]?.getD .free

/-- Sets the state of a slot; matrix state becomes dirty (R225). -/
def MatState.setSlot (os : Nat) (x : SlotState) (m : MatState) : MatState :=
  { m with slots := m.slots.setIfInBounds os x, ts := .dirty }

/-- A slot of 16 KiB becomes zero (R235). -/
def MatState.zeroSlot (os : Nat) (m : MatState) : MatState := { m with store := m.store.clear (16384 * os) 16384 }

/-- The armed weights name a slot, or have it as the partner of a KB format's slot (R245). -/
def MatState.armedFrom (m : MatState) (os : Nat) : Bool :=
  m.wv && (m.wslot.toNat == os || (5 ≤ m.wfmt.toNat && m.wslot.toNat + 1 == os))

/-- Misuse of a slot: cause 50 (R238). -/
def slotMisuse (code slot : Nat) : Exec α := raise 50 (BitVec.ofNat 64 (16 * code + slot))

/-- What every matrix instruction but lmode checks first (R238): its static checks, cause 31, the lane mode, and the
tile state. -/
def beginMatrix (static vectorToo : Bool) : Exec Unit := do
  require static
  checkLaneChange
  let m := (← get).core.mat
  if !(m.mode = .matrix || (vectorToo && m.mode = .vector)) then raise 25 0
  if m.ts = .off then raise 24 0

/-- mclaim and mclaim.rx (R235, R247). -/
def claimSlot (slot : BitVec 5) (next : SlotState) : State → Host.Outcome State Fault Refusal :=
  retiring do
    beginMatrix (slot.toNat < 8) true
    if (← get).core.mat.slot slot.toNat ≠ .free then slotMisuse 2 slot.toNat
    enterQv
    modify (State.mapMat fun m => (m.zeroSlot slot.toNat).setSlot slot.toNat next)

/-- mclaim (R247). -/
def execMclaim (slot : BitVec 5) : State → Host.Outcome State Fault Refusal := claimSlot slot .ready

/-- mclaim.rx (R247). -/
def execMclaimRx (slot : BitVec 5) : State → Host.Outcome State Fault Refusal := claimSlot slot .fillingChain

/-- mrelease (R235, R247): waits for a load or an accepted chain to land. -/
def execMrelease (slot : BitVec 5) : State → Host.Outcome State Fault Refusal :=
  retiring do
    beginMatrix (slot.toNat < 8) true
    let x := (← get).core.mat.slot slot.toNat
    if x = .free then slotMisuse 1 slot.toNat
    enterQv
    awaitLoads (x ≠ .fillingLoad)
    waitUntil (x ≠ .chainLanding)
    modify (State.mapMat fun m =>
      { (m.zeroSlot slot.toNat).setSlot slot.toNat .free with wv := m.wv && !m.armedFrom slot.toNat })

/-- The 8-byte units of an mslotld from the j-th up, in ascending order (R244). -/
def loadSlotUnits (sp : Space) (base : Word) (os : Nat) : Nat → Nat → Exec Unit
  | 0, _ => pure ()
  | n + 1, j => do
    let a := base + BitVec.ofNat 64 (8 * j)
    let x ← translate sp .load .none a
    let v ← readAt (← get).core.id x a 8 .normal
    modify (State.mapMat fun m => { m with store := m.store.write (16384 * os + 8 * j) 8 v })
    loadSlotUnits sp base os n (j + 1)

/-- mslotld (R235, R244): a fault leaves the units below it written and the slot Ready. On a slot that is Filling, for which
no row of R235 stands, it waits until the slot is Ready (DESIGN CHOICE, log entry 81). -/
def execMslotld (slot rs1 : BitVec 5) : State → Host.Outcome State Fault Refusal :=
  retiring do
    beginMatrix (slot.toNat < 8) true
    let os := slot.toNat
    let s ← get
    if s.core.mat.slot os = .free then slotMisuse 1 os
    let a := s.x rs1
    if a.toNat % 128 ≠ 0 then raise 4 a
    awaitLoads (s.core.mat.slot os ≠ .fillingLoad)
    waitUntil (s.core.mat.slot os = .ready)
    awaitLoadQueue
    modify (State.mapMat fun m =>
      { m.setSlot os .ready with wv := m.wv && m.wslot.toNat != os })
    loadSlotUnits s.vmuSpace a os 2048 0
    modify (State.mapMat (MatState.setSlot os .fillingLoad))

/-- A slot's load or chain lands where a test accepts its state. -/
def MatState.landSlot (p : SlotState → Bool) (os : Nat) (m : MatState) : MatState :=
  if p (m.slot os) then { m with slots := m.slots.setIfInBounds os .ready } else m

/-- SLOT_FILLED (R235). -/
def execSlotFilled (core slot : Nat) (s : State) : Host.Outcome State Fault Refusal :=
  .next (if core < coreCount then s.updCore core fun c =>
    { c with mat := c.mat.landSlot (· == .fillingLoad) slot } else s)

/-- CHAIN_LANDED (R235, R248). -/
def execChainLanded (core slot : Nat) (s : State) : Host.Outcome State Fault Refusal :=
  .next (if core < coreCount then s.updCore core fun c =>
    { c with mat := c.mat.landSlot (· == .chainLanding) slot } else s)

/-- A slot is being filled. -/
def SlotState.filling (x : SlotState) : Bool := x != .free && x != .ready

/-- mwload (R235, R236, R245): arms the slot's image, and its partner's scales for a KB format. Of codes 1 and 3 of cause 50,
where both apply, it gives 1 (R238 states no order: DESIGN CHOICE, log entry 81). -/
def armWeights (code : Nat) (slot : BitVec 5) : State → Host.Outcome State Fault Refusal :=
  retiring do
    let os := slot.toNat
    let block := decide (5 ≤ code)
    beginMatrix (os < 8 && code < 7) false
    let m := (← get).core.mat
    if m.slot os = .free then slotMisuse 1 os
    if block && (os % 2 = 1 || m.slot (os + 1) = .free) then slotMisuse 3 os
    enterQv
    awaitLoads (m.slot os ≠ .fillingLoad && !(block && m.slot (os + 1) == .fillingLoad))
    waitUntil (!(m.slot os).filling && !(block && (m.slot (os + 1)).filling))
    modify (State.mapMat fun m =>
      { m with
        armed := (m.store.slice (16384 * os) (if block then 32768 else 16384)).map fun c => (c.1 - 16384 * os, c.2)
        wv := true, wslot := BitVec.ofNat 3 os, wfmt := BitVec.ofNat 3 code, ts := .dirty })

/-- mwload of the formats bf16, f16, e4m3 and e5m2 (R237, R245). -/
def execMwloadGroup0 (wf : BitVec 2) (slot : BitVec 5) : State → Host.Outcome State Fault Refusal :=
  armWeights wf.toNat slot

/-- mwload of the formats sb, kb4 and kb8 (R237, R245). -/
def execMwloadGroup1 (wf : BitVec 2) (slot : BitVec 5) : State → Host.Outcome State Fault Refusal :=
  armWeights (4 + wf.toNat) slot

/-! ### Tile moves -/

/-- mtzero (R242): the tile is zero in both layouts. -/
def execMtzero (tile : BitVec 5) : State → Host.Outcome State Fault Refusal :=
  retiring do
    beginMatrix (tile.toNat < 2) false
    enterQv
    modify (State.mapVec fun v => v.zeroTile tile.toNat)

/-- mtdrain (R242). -/
def execMtdrain (tile : BitVec 5) : State → Host.Outcome State Fault Refusal :=
  retiring do
    beginMatrix (tile.toNat < 2) false
    enterQv
    modify (State.layTile tile.toNat false)

/-- An operand group's geometry, over every lane in service (R228). -/
def State.groupGeometry (s : State) : Geometry := { s.core.vec.geometry with g := s.lanes }

/-- A vector register that a matrix instruction may name: below n and outside the tile store (R228). -/
def State.matrixReg (s : State) (r : Nat) : Bool := decide (r < s.tileStore)

/-- A copy of tile words into a vector register (R243): `words` gives the index in the tile of each element. -/
def tileToVector (vd tile rs1 : BitVec 5) (limit count : State → Nat) (word : Nat → Nat → Nat × Nat) :
    State → Host.Outcome State Fault Refusal :=
  retiring do
    let s ← get
    let i := (s.x rs1).toNat
    beginMatrix (tile.toNat < 2 && s.matrixReg vd.toNat && decide (i < limit s)) false
    enterQv
    checkFull [] [vd.toNat]
    let tm := tileMap s.core.vec.laneMap
    let sk := s.core.mat.skewed tile.toNat
    modify (State.mapVec fun v => (List.range (count s)).foldl
      (fun v e => v.putElem s.groupGeometry 32 vd.toNat e
        (s.core.vec.tileWord tm sk tile.toNat (word i e).1 (word i e).2)) v)

/-- A copy of a vector register's elements into tile words (R243). -/
def vectorToTile (tile vs2 rs1 : BitVec 5) (limit count : State → Nat) (word : Nat → Nat → Nat × Nat) :
    State → Host.Outcome State Fault Refusal :=
  retiring do
    let s ← get
    let i := (s.x rs1).toNat
    beginMatrix (tile.toNat < 2 && s.matrixReg vs2.toNat && decide (i < limit s)) false
    enterQv
    checkFull [vs2.toNat] []
    let tm := tileMap s.core.vec.laneMap
    let sk := s.core.mat.skewed tile.toNat
    modify (State.mapVec fun v => ((List.range (count s)).foldl
      (fun v e => v.putTile tm sk tile.toNat (word i e).1 (word i e).2
        (s.core.vec.elem s.groupGeometry 32 vs2.toNat e)) v).dirtyTile tile.toNat)

/-- kmrows of the core in focus (R234). -/
def State.kmrows (s : State) : Nat := kmrowsOf s.core.vec.laneMap

/-- mtmv: a tile row into a register (R243). -/
def execMtmv (vd tile rs1 : BitVec 5) : State → Host.Outcome State Fault Refusal :=
  tileToVector vd tile rs1 State.kmrows (fun _ => 64) fun i e => (i, e)

/-- mtmvc: a tile column into a register (R243). -/
def execMtmvc (vd tile rs1 : BitVec 5) : State → Host.Outcome State Fault Refusal :=
  tileToVector vd tile rs1 (fun _ => 64) State.kmrows fun i e => (e, i)

/-- mvtm: a register into a tile row (R243). -/
def execMvtm (tile vs2 rs1 : BitVec 5) : State → Host.Outcome State Fault Refusal :=
  vectorToTile tile vs2 rs1 State.kmrows (fun _ => 64) fun i e => (i, e)

/-- mvtmc: a register into a tile column (R243). -/
def execMvtmc (tile vs2 rs1 : BitVec 5) : State → Host.Outcome State Fault Refusal :=
  vectorToTile tile vs2 rs1 (fun _ => 64) State.kmrows fun i e => (e, i)

/-! ### Compute instructions -/

/-- The formats of a matrix product (R229): of the first and the second operand, and q. -/
structure MatFormat where
  fa : NumFormat
  fb : NumFormat
  q : Nat
deriving DecidableEq, Repr

/-- The format that g and fm name for mopa and mopak (R237); none where they are illegal. -/
def matFormat (g : BitVec 1) (fm : BitVec 2) : Option MatFormat :=
  match g, fm with
  | 0, 0 => some ⟨.float bf16, .float bf16, 1⟩
  | 0, 1 => some ⟨.float fp16, .float fp16, 1⟩
  | 0, 2 => some ⟨.float e4m3, .float e4m3, 2⟩
  | 0, _ => some ⟨.float e5m2, .float e5m2, 2⟩
  | _, 0 => some ⟨.float e4m3, .float e5m2, 2⟩
  | _, 1 => some ⟨.float e5m2, .float e4m3, 2⟩
  | _, 2 => some ⟨.int 8, .int 8, 2⟩
  | _, _ => none

/-- One step on one tile word (R230): INT8 sums wrap; otherwise the exact sum of the products and the accumulator is
rounded once to FP32. -/
def stepWord (int : Bool) (r : Rounding) (acc : Nat) (pairs : List (FVal × FVal)) : Nat × Flags :=
  if int then
    (wrap 32 (acc + (pairs.foldl (fun t p => t + scaled p.1 0 * scaled p.2 0) (0 : Int))), 0)
  else blockDot r (fp32.value acc) pairs

/-- A format of integers. -/
def NumFormat.isInt : NumFormat → Bool
  | .int _ => true
  | .float _ => false

/-- How many registers an operand group of n elements of a width spans (R228). -/
def State.groupSize (s : State) (elements w : Nat) : Nat :=
  let per := s.lanes * (16384 / s.nreg)
  (elements * w + per - 1) / per

/-- The registers of an operand group. -/
def State.groupRegs (s : State) (v elements w : Nat) : List Nat := (List.range (s.groupSize elements w)).map (v + ·)

/-- The kmpred checks of a compute instruction (R231). -/
def State.predOk (s : State) (stream : Bool) : Bool :=
  let m := s.core.mat
  decide (0 < m.predRows.toNat ∧ m.predRows.toNat ≤ s.kmrows ∧ 0 < m.predCols.toNat ∧ m.predCols.toNat ≤ 64 ∧
    0 < m.predDepth.toNat) && (!stream || decide (m.predDepth.toNat ≤ s.kmrows))

/-- Writes a list of tile words in array layout, with their flags. -/
def State.putWords (tile : Nat) (words : List ((Nat × Nat) × (Nat × Flags))) (s : State) : State :=
  let tm := tileMap s.core.vec.laneMap
  let s := s.mapVec fun v =>
    (words.foldl (fun v w => v.putTile tm true tile w.1.1 w.1.2 w.2.1) v).dirtyTile tile
  s.raiseVector (words.foldl (fun fl w => fl ||| w.2.2) 0)

/-- Steps `from` to `to − 1` of mopak on every word inside the predicate (R240). -/
def State.outerSteps (f : MatFormat) (tile vs1 vs2 depth lo hi : Nat) (s : State) : State :=
  let s := s.layTile tile true
  let v := s.core.vec
  let geo := s.groupGeometry
  let tm := tileMap v.laneMap
  let k := f.q * depth
  let a (r j : Nat) : FVal := f.fa.value (v.elem geo f.fa.width vs1 (r * k + j))
  let b (j c : Nat) : FVal := f.fb.value (v.elem geo f.fb.width vs2 (j * 64 + c))
  let word (rc : Nat × Nat) : Nat × Flags :=
    ((List.range (hi - lo)).map (lo + ·)).foldl
      (fun acc t =>
        let (x, fl) := stepWord f.fa.isInt s.vectorRounding acc.1
          ((List.range f.q).map fun j => (a rc.1 (f.q * t + j), b (f.q * t + j) rc.2))
        (x, acc.2 ||| fl))
      (v.tileWord tm true tile rc.1 rc.2, 0)
  s.putWords tile ((cells s.core.mat.predRows.toNat s.core.mat.predCols.toNat).map fun rc => (rc, word rc))

/-- mopak and mopa (R240, R241): `single` performs one step and leaves kmstep alone. Of several empty registers cause 26 reports
the lowest of the group of vs1, and one of the group of vs2 only where that of vs1 is full (DESIGN CHOICE, log entry 29). -/
def outerProduct (single : Bool) (g : BitVec 1) (fm : BitVec 2) (tile vs1 vs2 : BitVec 5) :
    State → Host.Outcome State Fault Refusal :=
  retiring do
    let s ← get
    match matFormat g fm with
    | none => illegal
    | some f =>
      beginMatrix (tile.toNat < 2 && s.matrixReg vs1.toNat && s.matrixReg vs2.toNat) false
      let depth := if single then 1 else s.core.mat.predDepth.toNat
      let k := f.q * depth
      let ga := s.groupRegs vs1.toNat (s.core.mat.predRows.toNat * k) f.fa.width
      let gb := s.groupRegs vs2.toNat (k * 64) f.fb.width
      require (s.predOk false && (ga ++ gb).all s.matrixReg)
      enterQv
      checkFull (ga ++ gb) []
      let lo := if single then 0 else s.core.mat.kmstep.toNat
      let stop := if single then 1 else
        match s.core.stopAt with | none => depth | some n => min depth (lo + max 1 n)
      if lo < stop then modify (State.outerSteps f tile.toNat vs1.toNat vs2.toNat depth lo stop)
      if !single then
        if stop < depth then
          modify (State.mapMat fun m => { m with kmstep := BitVec.ofNat 16 stop })
          throw .wait
        modify (State.mapMat fun m => { m with kmstep := 0 })

/-- mopa (R241). -/
def execMopa (g : BitVec 1) (fm : BitVec 2) (tile vs1 vs2 : BitVec 5) : State → Host.Outcome State Fault Refusal :=
  outerProduct true g fm tile vs1 vs2

/-- mopak (R240). -/
def execMopak (g : BitVec 1) (fm : BitVec 2) (tile vs1 vs2 : BitVec 5) : State → Host.Outcome State Fault Refusal :=
  outerProduct false g fm tile vs1 vs2

/-- The activation format of an mws (R237); none where it is illegal. -/
def activationFormat (g : BitVec 1) (fm : BitVec 2) : Option NumFormat :=
  match g, fm with
  | 0, 0 => some (.float bf16)
  | 0, 1 => some (.float fp16)
  | 0, 2 => some (.float e4m3)
  | 0, _ => some (.float e5m2)
  | _, 0 => some (.int 8)
  | _, _ => none

/-- q of an armed weight format (R229). -/
def weightQ (wfmt : Nat) : Nat := match wfmt with | 0 | 1 => 1 | 5 => 4 | _ => 2

/-- An activation format matches the armed weights (R238, code 5). -/
def weightMatches (a : NumFormat) (wfmt : Nat) : Bool :=
  match wfmt with
  | 0 => a == .float bf16
  | 1 => a == .float fp16
  | 4 => a == .int 8
  | _ => a == .float e4m3 || a == .float e5m2

/-- weight(k, c): the armed value (R236, R246). -/
def MatState.weight (m : MatState) (k c : Nat) : FVal :=
  let e := 64 * k + c
  let scale := m.armed.read (16384 + 2 * (64 * (k / 16) + c)) 2
  match m.wfmt.toNat with
  | 0 => bf16.value (m.armed.read (2 * e) 2)
  | 1 => fp16.value (m.armed.read (2 * e) 2)
  | 2 => e4m3.value (m.armed.read e 1)
  | 3 => e5m2.value (m.armed.read e 1)
  | 4 => FVal.ofInt (signed 8 (m.armed.read e 1))
  | 5 => (blockFormat 1).value scale (m.armed.read (e / 2) 1 / 16 ^ (e % 2) % 16)
  | _ => (blockFormat 0).value scale (m.armed.read e 1)

/-- Tokens `lo` to `hi − 1` of mws (R246). -/
def State.streamTokens (a : NumFormat) (tile vs1 k lo hi : Nat) (s : State) : State :=
  let s := s.layTile tile true
  let v := s.core.vec
  let geo := s.groupGeometry
  let tm := tileMap v.laneMap
  let m := s.core.mat
  let word (rc : Nat × Nat) : Nat × Flags :=
    stepWord a.isInt s.vectorRounding (v.tileWord tm true tile rc.1 rc.2)
      ((List.range k).map fun j => (a.value (v.elem geo a.width vs1 (rc.1 * k + j)), m.weight j rc.2))
  let all := (cells hi m.predCols.toNat).filter fun rc => lo ≤ rc.1
  s.putWords tile (all.map fun rc => (rc, word rc))

/-- mws (R246). Code 5 of cause 50 shows WSLOT as its slot, as code 4 does, which R238 says of code 4 alone (DESIGN CHOICE, log
entry 81). -/
def execMws (g : BitVec 1) (fm : BitVec 2) (tile vs1 : BitVec 5) : State → Host.Outcome State Fault Refusal :=
  retiring do
    let s ← get
    match activationFormat g fm with
    | none => illegal
    | some a =>
      beginMatrix (tile.toNat < 2 && s.matrixReg vs1.toNat) false
      let m := s.core.mat
      if !m.wv then slotMisuse 4 m.wslot.toNat
      if !weightMatches a m.wfmt.toNat then slotMisuse 5 m.wslot.toNat
      let k := weightQ m.wfmt.toNat * m.predDepth.toNat
      let ga := s.groupRegs vs1.toNat (m.predRows.toNat * k) a.width
      require (s.predOk true && ga.all s.matrixReg)
      enterQv
      checkFull ga []
      let rows := m.predRows.toNat
      let lo := m.kmstep.toNat
      let stop := match s.core.stopAt with | none => rows | some n => min rows (lo + max 1 n)
      if lo < stop then modify (State.streamTokens a tile.toNat vs1.toNat k lo stop)
      if stop < rows then
        modify (State.mapMat fun m => { m with kmstep := BitVec.ofNat 16 stop })
        throw .wait
      modify (State.mapMat fun m => { m with kmstep := 0 })

/-! ### Chains -/

/-- The format f of an mchain (R237). -/
def chainFormat (f : BitVec 2) : Format := match f with | 0 => bf16 | 1 => fp16 | 2 => e4m3 | _ => e5m2

/-- One element of a chained image, and its flags (R248): a word outside the predicate is zero; a word of a row that the
array does not have is a free value (log entry 26). -/
def State.chainElement (s : State) (f : Format) (tile k c : Nat) : Nat × Flags :=
  let v := s.core.vec
  let m := s.core.mat
  if k < m.predRows.toNat && c < m.predCols.toNat then
    let word := if k < s.kmrows then v.tileWord (tileMap v.laneMap) (m.skewed tile) tile k c
      else (Config.freeWord (s.free + 64 * k + c)).toNat % 2 ^ 32
    toFloat f .rne (fp32.value word)
  else (0, 0)

/-- The status of an mchain (R248); 2 also where the target core or the caller has no continuation, of which the pseudocode does
not speak (DESIGN CHOICE, log entry 81). -/
def State.chainStatus (s : State) (target slot : Word) : Nat :=
  if 2303 < target.toNat || 7 < slot.toNat then 3
  else
    let c := s.coreOf target.toNat
    match c.cont, s.region with
    | some k, some g =>
      if k.region ≠ g then 2
      else if k.phase ≠ .running || c.mat.slot slot.toNat ≠ .fillingChain then 1 else 0
    | _, _ => 2

/-- The image and its flags reach the target slot, which is Filling until the last byte lands (R235, R248). -/
def State.sendChain (f : Format) (tile target slot : Nat) (s : State) : State :=
  let n := f.width / 8
  let rows := if n = 2 then 128 else 256
  let image := (cells rows 64).map fun kc => (kc, s.chainElement f tile kc.1 kc.2)
  let s' := s.updCore target fun c => { c with
    mat := { (c.mat.zeroSlot slot).setSlot slot .chainLanding with
      store := image.foldl
        (fun (st : ByteMap) (e : (Nat × Nat) × (Nat × Flags)) => st.write (16384 * slot + n * (64 * e.1.1 + e.1.2)) n e.2.1) (c.mat.zeroSlot slot).store } }
  { s' with free := s'.free + 64 * 256 }.raiseVector (image.foldl (fun (fl : Flags) (e : (Nat × Nat) × (Nat × Flags)) => fl ||| e.2.2) 0)

/-- mchain (R248). -/
def chain (tile : Nat) (f : BitVec 2) (rd rs1 rs2 : BitVec 5) : State → Host.Outcome State Fault Refusal :=
  retiring do
    beginMatrix true false
    enterQv
    let s ← get
    let st := s.chainStatus (s.x rs1) (s.x rs2)
    if st = 0 then modify (State.sendChain (chainFormat f) tile (s.x rs1).toNat (s.x rs2).toNat)
    putX rd (BitVec.ofNat 64 st)

/-- mchain of tacc0 (R248). -/
def execMchainTacc0 (f : BitVec 2) (rd rs1 rs2 : BitVec 5) : State → Host.Outcome State Fault Refusal :=
  chain 0 f rd rs1 rs2

/-- mchain of tacc1 (R248). -/
def execMchainTacc1 (f : BitVec 2) (rd rs1 rs2 : BitVec 5) : State → Host.Outcome State Fault Refusal :=
  chain 1 f rd rs1 rs2

end Sys2Proof.Machine
end

