-- ==== Sys2Proof/Machine/Scalar.lean ====
section
/-! DEFINITION. The control thread's integer instructions (03_control_thread R58 to R60): RV64I and M. -/

namespace Sys2Proof.Machine

/-- A 32-bit result sign-extended to 64 bits. -/
def sext32 (v : Word32) : Word := v.signExtend 64

/-- The low 32 bits of a register. -/
def low32 (v : Word) : Word32 := v.setWidth 32

/-- The upper immediate of LUI and AUIPC. -/
def upperImm (imm : BitVec 20) : Word := (imm ++ 0#12).signExtend 64

/-- A 12-bit immediate, sign-extended. -/
def imm12 (imm : BitVec 12) : Word := imm.signExtend 64

/-- The byte offset of JAL. -/
def jalOffset (off : BitVec 20) : Word := (off ++ 0#1).signExtend 64

/-- The byte offset of a branch. -/
def branchOffset (off : BitVec 12) : Word := (off ++ 0#1).signExtend 64

/-- A jump: a target that is no multiple of 4 raises cause 0 and writes no register (R60 item 1). -/
def jump (rd : BitVec 5) (target : Word) : Exec Unit := do
  if target.toNat % 4 ≠ 0 then raise 0 target
  let pc := (← get).core.pc
  putX rd (pc + 4)
  modify (State.retireTo target)

/-- A branch on a condition of its two registers (R59, R60 item 1). -/
def branch (cond : Word → Word → Bool) (rs1 rs2 : BitVec 5) (off : BitVec 12) : Exec Unit := do
  let s ← get
  if cond (s.x rs1) (s.x rs2) then jump 0 (s.core.pc + branchOffset off) else modify State.retire

/-- The low 6 bits of a shift amount. -/
def shift6 (v : Word) : Nat := v.toNat % 64

/-- The low 5 bits of a shift amount. -/
def shift5 (v : Word) : Nat := v.toNat % 32

/-- Signed division: by zero gives −1, and the one overflow gives the dividend. -/
def divSigned (n : Nat) (a b : BitVec n) : BitVec n := if b = 0 then BitVec.allOnes n else a.sdiv b

/-- Unsigned division: by zero gives all ones. -/
def divUnsigned (n : Nat) (a b : BitVec n) : BitVec n := if b = 0 then BitVec.allOnes n else a / b

/-- Signed remainder: by zero gives the dividend. -/
def remSigned (n : Nat) (a b : BitVec n) : BitVec n := if b = 0 then a else a.srem b

/-- Unsigned remainder: by zero gives the dividend. -/
def remUnsigned (n : Nat) (a b : BitVec n) : BitVec n := if b = 0 then a else a % b

/-- The high 64 bits of a 128-bit product. -/
def mulHigh (a b : Int) : Word := BitVec.ofInt 64 (a * b / 2 ^ 64)

/-- 1 where a condition holds, else 0. -/
def boolWord (b : Bool) : Word := if b then 1 else 0

/-- LUI (R59). -/
def execLui (rd : BitVec 5) (imm : BitVec 20) (s : State) : Host.Outcome State Fault Refusal :=
  writing rd (upperImm imm) s

/-- AUIPC (R59). -/
def execAuipc (rd : BitVec 5) (imm : BitVec 20) (s : State) : Host.Outcome State Fault Refusal :=
  writing rd (s.core.pc + upperImm imm) s

/-- JAL (R59, R60 item 1). -/
def execJal (rd : BitVec 5) (off : BitVec 20) (s : State) : Host.Outcome State Fault Refusal :=
  execute (jump rd (s.core.pc + jalOffset off)) s

/-- JALR (R59, R60 item 1): bit 0 of the sum is cleared. -/
def execJalr (rd rs1 : BitVec 5) (imm : BitVec 12) (s : State) : Host.Outcome State Fault Refusal :=
  execute (jump rd ((s.x rs1 + imm12 imm) &&& ~~~1#64)) s

/-- BEQ (R59). -/
def execBeq (rs1 rs2 : BitVec 5) (off : BitVec 12) (s : State) : Host.Outcome State Fault Refusal :=
  execute (branch (fun a b => a == b) rs1 rs2 off) s

/-- BNE (R59). -/
def execBne (rs1 rs2 : BitVec 5) (off : BitVec 12) (s : State) : Host.Outcome State Fault Refusal :=
  execute (branch (fun a b => a != b) rs1 rs2 off) s

/-- BLT (R59). -/
def execBlt (rs1 rs2 : BitVec 5) (off : BitVec 12) (s : State) : Host.Outcome State Fault Refusal :=
  execute (branch (fun a b => a.slt b) rs1 rs2 off) s

/-- BGE (R59). -/
def execBge (rs1 rs2 : BitVec 5) (off : BitVec 12) (s : State) : Host.Outcome State Fault Refusal :=
  execute (branch (fun a b => !a.slt b) rs1 rs2 off) s

/-- BLTU (R59). -/
def execBltu (rs1 rs2 : BitVec 5) (off : BitVec 12) (s : State) : Host.Outcome State Fault Refusal :=
  execute (branch (fun a b => a.ult b) rs1 rs2 off) s

/-- BGEU (R59). -/
def execBgeu (rs1 rs2 : BitVec 5) (off : BitVec 12) (s : State) : Host.Outcome State Fault Refusal :=
  execute (branch (fun a b => !a.ult b) rs1 rs2 off) s

/-- ADDI (R59). -/
def execAddi (rd rs1 : BitVec 5) (imm : BitVec 12) (s : State) : Host.Outcome State Fault Refusal :=
  writing rd (s.x rs1 + imm12 imm) s

/-- SLTI (R59). -/
def execSlti (rd rs1 : BitVec 5) (imm : BitVec 12) (s : State) : Host.Outcome State Fault Refusal :=
  writing rd (boolWord ((s.x rs1).slt (imm12 imm))) s

/-- SLTIU (R59). -/
def execSltiu (rd rs1 : BitVec 5) (imm : BitVec 12) (s : State) : Host.Outcome State Fault Refusal :=
  writing rd (boolWord ((s.x rs1).ult (imm12 imm))) s

/-- XORI (R59). -/
def execXori (rd rs1 : BitVec 5) (imm : BitVec 12) (s : State) : Host.Outcome State Fault Refusal :=
  writing rd (s.x rs1 ^^^ imm12 imm) s

/-- ORI (R59). -/
def execOri (rd rs1 : BitVec 5) (imm : BitVec 12) (s : State) : Host.Outcome State Fault Refusal :=
  writing rd (s.x rs1 ||| imm12 imm) s

/-- ANDI (R59). -/
def execAndi (rd rs1 : BitVec 5) (imm : BitVec 12) (s : State) : Host.Outcome State Fault Refusal :=
  writing rd (s.x rs1 &&& imm12 imm) s

/-- ADDIW (R59). -/
def execAddiw (rd rs1 : BitVec 5) (imm : BitVec 12) (s : State) : Host.Outcome State Fault Refusal :=
  writing rd (sext32 (low32 (s.x rs1 + imm12 imm))) s

/-- SLLI (R59). -/
def execSlli (rd rs1 : BitVec 5) (shamt : BitVec 6) (s : State) : Host.Outcome State Fault Refusal :=
  writing rd (s.x rs1 <<< shamt.toNat) s

/-- SRLI (R59). -/
def execSrli (rd rs1 : BitVec 5) (shamt : BitVec 6) (s : State) : Host.Outcome State Fault Refusal :=
  writing rd (s.x rs1 >>> shamt.toNat) s

/-- SRAI (R59). -/
def execSrai (rd rs1 : BitVec 5) (shamt : BitVec 6) (s : State) : Host.Outcome State Fault Refusal :=
  writing rd ((s.x rs1).sshiftRight shamt.toNat) s

/-- SLLIW (R59). -/
def execSlliw (rd rs1 shamt : BitVec 5) (s : State) : Host.Outcome State Fault Refusal :=
  writing rd (sext32 (low32 (s.x rs1) <<< shamt.toNat)) s

/-- SRLIW (R59). -/
def execSrliw (rd rs1 shamt : BitVec 5) (s : State) : Host.Outcome State Fault Refusal :=
  writing rd (sext32 (low32 (s.x rs1) >>> shamt.toNat)) s

/-- SRAIW (R59). -/
def execSraiw (rd rs1 shamt : BitVec 5) (s : State) : Host.Outcome State Fault Refusal :=
  writing rd (sext32 ((low32 (s.x rs1)).sshiftRight shamt.toNat)) s

/-- ADD (R59). -/
def execAdd (rd rs1 rs2 : BitVec 5) (s : State) : Host.Outcome State Fault Refusal :=
  writing rd (s.x rs1 + s.x rs2) s

/-- SLL (R59). -/
def execSll (rd rs1 rs2 : BitVec 5) (s : State) : Host.Outcome State Fault Refusal :=
  writing rd (s.x rs1 <<< shift6 (s.x rs2)) s

/-- SLT (R59). -/
def execSlt (rd rs1 rs2 : BitVec 5) (s : State) : Host.Outcome State Fault Refusal :=
  writing rd (boolWord ((s.x rs1).slt (s.x rs2))) s

/-- SLTU (R59). -/
def execSltu (rd rs1 rs2 : BitVec 5) (s : State) : Host.Outcome State Fault Refusal :=
  writing rd (boolWord ((s.x rs1).ult (s.x rs2))) s

/-- XOR (R59). -/
def execXor (rd rs1 rs2 : BitVec 5) (s : State) : Host.Outcome State Fault Refusal :=
  writing rd (s.x rs1 ^^^ s.x rs2) s

/-- SRL (R59). -/
def execSrl (rd rs1 rs2 : BitVec 5) (s : State) : Host.Outcome State Fault Refusal :=
  writing rd (s.x rs1 >>> shift6 (s.x rs2)) s

/-- OR (R59). -/
def execOr (rd rs1 rs2 : BitVec 5) (s : State) : Host.Outcome State Fault Refusal :=
  writing rd (s.x rs1 ||| s.x rs2) s

/-- AND (R59). -/
def execAnd (rd rs1 rs2 : BitVec 5) (s : State) : Host.Outcome State Fault Refusal :=
  writing rd (s.x rs1 &&& s.x rs2) s

/-- SUB (R59). -/
def execSub (rd rs1 rs2 : BitVec 5) (s : State) : Host.Outcome State Fault Refusal :=
  writing rd (s.x rs1 - s.x rs2) s

/-- SRA (R59). -/
def execSra (rd rs1 rs2 : BitVec 5) (s : State) : Host.Outcome State Fault Refusal :=
  writing rd ((s.x rs1).sshiftRight (shift6 (s.x rs2))) s

/-- MUL (R59). -/
def execMul (rd rs1 rs2 : BitVec 5) (s : State) : Host.Outcome State Fault Refusal :=
  writing rd (s.x rs1 * s.x rs2) s

/-- MULH (R59). -/
def execMulh (rd rs1 rs2 : BitVec 5) (s : State) : Host.Outcome State Fault Refusal :=
  writing rd (mulHigh (s.x rs1).toInt (s.x rs2).toInt) s

/-- MULHSU (R59). -/
def execMulhsu (rd rs1 rs2 : BitVec 5) (s : State) : Host.Outcome State Fault Refusal :=
  writing rd (mulHigh (s.x rs1).toInt (s.x rs2).toNat) s

/-- MULHU (R59). -/
def execMulhu (rd rs1 rs2 : BitVec 5) (s : State) : Host.Outcome State Fault Refusal :=
  writing rd (mulHigh (s.x rs1).toNat (s.x rs2).toNat) s

/-- DIV (R59). -/
def execDiv (rd rs1 rs2 : BitVec 5) (s : State) : Host.Outcome State Fault Refusal :=
  writing rd (divSigned 64 (s.x rs1) (s.x rs2)) s

/-- DIVU (R59). -/
def execDivu (rd rs1 rs2 : BitVec 5) (s : State) : Host.Outcome State Fault Refusal :=
  writing rd (divUnsigned 64 (s.x rs1) (s.x rs2)) s

/-- REM (R59). -/
def execRem (rd rs1 rs2 : BitVec 5) (s : State) : Host.Outcome State Fault Refusal :=
  writing rd (remSigned 64 (s.x rs1) (s.x rs2)) s

/-- REMU (R59). -/
def execRemu (rd rs1 rs2 : BitVec 5) (s : State) : Host.Outcome State Fault Refusal :=
  writing rd (remUnsigned 64 (s.x rs1) (s.x rs2)) s

/-- ADDW (R59). -/
def execAddw (rd rs1 rs2 : BitVec 5) (s : State) : Host.Outcome State Fault Refusal :=
  writing rd (sext32 (low32 (s.x rs1) + low32 (s.x rs2))) s

/-- SLLW (R59). -/
def execSllw (rd rs1 rs2 : BitVec 5) (s : State) : Host.Outcome State Fault Refusal :=
  writing rd (sext32 (low32 (s.x rs1) <<< shift5 (s.x rs2))) s

/-- SRLW (R59). -/
def execSrlw (rd rs1 rs2 : BitVec 5) (s : State) : Host.Outcome State Fault Refusal :=
  writing rd (sext32 (low32 (s.x rs1) >>> shift5 (s.x rs2))) s

/-- SUBW (R59). -/
def execSubw (rd rs1 rs2 : BitVec 5) (s : State) : Host.Outcome State Fault Refusal :=
  writing rd (sext32 (low32 (s.x rs1) - low32 (s.x rs2))) s

/-- SRAW (R59). -/
def execSraw (rd rs1 rs2 : BitVec 5) (s : State) : Host.Outcome State Fault Refusal :=
  writing rd (sext32 ((low32 (s.x rs1)).sshiftRight (shift5 (s.x rs2)))) s

/-- MULW (R59). -/
def execMulw (rd rs1 rs2 : BitVec 5) (s : State) : Host.Outcome State Fault Refusal :=
  writing rd (sext32 (low32 (s.x rs1) * low32 (s.x rs2))) s

/-- DIVW (R59). -/
def execDivw (rd rs1 rs2 : BitVec 5) (s : State) : Host.Outcome State Fault Refusal :=
  writing rd (sext32 (divSigned 32 (low32 (s.x rs1)) (low32 (s.x rs2)))) s

/-- DIVUW (R59). -/
def execDivuw (rd rs1 rs2 : BitVec 5) (s : State) : Host.Outcome State Fault Refusal :=
  writing rd (sext32 (divUnsigned 32 (low32 (s.x rs1)) (low32 (s.x rs2)))) s

/-- REMW (R59). -/
def execRemw (rd rs1 rs2 : BitVec 5) (s : State) : Host.Outcome State Fault Refusal :=
  writing rd (sext32 (remSigned 32 (low32 (s.x rs1)) (low32 (s.x rs2)))) s

/-- REMUW (R59). -/
def execRemuw (rd rs1 rs2 : BitVec 5) (s : State) : Host.Outcome State Fault Refusal :=
  writing rd (sext32 (remUnsigned 32 (low32 (s.x rs1)) (low32 (s.x rs2)))) s

end Sys2Proof.Machine
end

