-- ==== Sys2Proof/Machine/ScalarMem.lean ====
section
/-! DEFINITION. The control thread's loads, stores, fences and atomics (03_control_thread R55 to R62, 12_sync_model
R276, R290, R306). -/

namespace Sys2Proof.Machine

/-- The address of a scalar access: x[rs1] + imm. -/
def State.addr (s : State) (rs1 : BitVec 5) (imm : BitVec 12) : Word := s.x rs1 + imm12 imm

/-- A scalar load of `n` bytes into an integer register. -/
def loadTo (rd : BitVec 5) (va : Word) (n : Nat) (ext : Nat → Word) : Exec Unit := do
  let v ← scalarLoad va n
  putX rd (ext v)

/-- Zero extension to 64 bits. -/
def zext (v : Nat) : Word := BitVec.ofNat 64 v

/-- The release of an atomic with rl, which its earlier accesses wait for: nothing of it is done until the spacing of R277
allows the bump (R6). -/
def awaitOrdered (rl : BitVec 1) : Exec Unit := awaitRelease (if rl = 1 then 3 else 0)

/-- The bump and the invalidation of an atomic that has been performed, as its rl and aq ask (R62, R276, R277). -/
def State.ordered (aq rl : BitVec 1) (s : State) : State :=
  let s := if rl = 1 then s.bumpPhase else s
  if aq = 1 then s.invalidateData else s

/-- A scalar AMO (R62, R306): rl makes it a release, aq an acquire; rd receives the old value, sign-extended. One that
traps has bumped nothing. -/
def amo (kind : AtomicKind) (n : Nat) (f : Nat → Nat → Nat) (rd rs1 rs2 : BitVec 5) (aq rl : BitVec 1) :
    Exec Unit := do
  let s ← get
  let va := s.x rs1
  if va.toNat % n ≠ 0 then raise 6 va
  awaitOrdered rl
  let old ← scalarAtomic kind va n fun v => some (f v ((s.x rs2).toNat % 2 ^ (8 * n)))
  modify (State.ordered aq rl)
  putX rd (sext (8 * n) old)

/-- FENCE.I and cinval drop the block buffers that no micro-thread uses (R254). -/
def Core.dropBuffers (c : Core) : Core :=
  let used (b : BlockBuffer) : Bool := c.mt.threads.any fun t => t.2.line == some b.line
  { c with mt := { c.mt with buffers := c.mt.buffers.filter used } }

/-- Empties the instruction cache and the block buffers not in use (R60, R254). -/
def State.invalidateFetch (s : State) : State := s.mapCore fun c => Core.dropBuffers { c with icache := [] }

/-- LR (R62): takes a reservation on the line that holds its address. -/
def loadReserved (n : Nat) (rd rs1 : BitVec 5) (aq rl : BitVec 1) : Exec Unit := do
  let s ← get
  let va := s.x rs1
  if va.toNat % n ≠ 0 then raise 4 va
  awaitOrdered rl
  let x ← translate s.dataSpace .load .none va
  checkHostAtomic .reserve n x va
  modify (State.mapCore (Core.dropData x.pa))
  let v ← readAt s.core.id x va n .normal
  modify (State.mapCore fun c => { c with reservation := some ⟨x.pa, c.clock⟩ })
  modify (State.ordered aq rl)
  putX rd (sext (8 * n) v)

/-- The core holds a reservation at a physical address, taken less than 4,096 core cycles ago (R62). -/
def Core.reserves (c : Core) (pa : Nat) : Bool :=
  match c.reservation with
  | some r => r.addr == pa && decide (c.clock < r.cycle + 4096)
  | none => false

/-- SC (R62): writes and gives 0 where the core still holds the reservation of its latest LR at the same physical
address; otherwise writes nothing and gives 1. Either way the reservation is lost. It reads nothing, so that at poison it raises
cause 7 as a store does (R376; DEDUCED, log entry 95). -/
def storeConditional (n : Nat) (rd rs1 rs2 : BitVec 5) (aq rl : BitVec 1) : Exec Unit := do
  let s ← get
  let va := s.x rs1
  if va.toNat % n ≠ 0 then raise 6 va
  awaitOrdered rl
  let x ← translate s.dataSpace .store .none va
  checkHostAtomic .other n x va
  modify (State.mapCore (Core.dropData x.pa))
  if s.core.reserves x.pa then
    let _ ← atomicAt s.core.id x va n (fun _ => some ((s.x rs2).toNat % 2 ^ (8 * n))) 7
    putX rd 0
  else
    checkUnwritten s.core.id x.pa va
    putX rd 1
  modify (State.mapCore fun c => { c with reservation := none })
  modify (State.ordered aq rl)

/-- The smaller of two n-byte values, compared as signed. -/
def minSigned (n a b : Nat) : Nat := if signed (8 * n) a ≤ signed (8 * n) b then a else b
/-- The larger of two n-byte values, compared as signed. -/
def maxSigned (n a b : Nat) : Nat := if signed (8 * n) a ≤ signed (8 * n) b then b else a

/-- LB (R59). -/
def execLb (rd rs1 : BitVec 5) (imm : BitVec 12) (s : State) : Host.Outcome State Fault Refusal :=
  retiring (loadTo rd (s.addr rs1 imm) 1 (sext 8)) s

/-- LH (R59). -/
def execLh (rd rs1 : BitVec 5) (imm : BitVec 12) (s : State) : Host.Outcome State Fault Refusal :=
  retiring (loadTo rd (s.addr rs1 imm) 2 (sext 16)) s

/-- LW (R59). -/
def execLw (rd rs1 : BitVec 5) (imm : BitVec 12) (s : State) : Host.Outcome State Fault Refusal :=
  retiring (loadTo rd (s.addr rs1 imm) 4 (sext 32)) s

/-- LD (R59). -/
def execLd (rd rs1 : BitVec 5) (imm : BitVec 12) (s : State) : Host.Outcome State Fault Refusal :=
  retiring (loadTo rd (s.addr rs1 imm) 8 zext) s

/-- LBU (R59). -/
def execLbu (rd rs1 : BitVec 5) (imm : BitVec 12) (s : State) : Host.Outcome State Fault Refusal :=
  retiring (loadTo rd (s.addr rs1 imm) 1 zext) s

/-- LHU (R59). -/
def execLhu (rd rs1 : BitVec 5) (imm : BitVec 12) (s : State) : Host.Outcome State Fault Refusal :=
  retiring (loadTo rd (s.addr rs1 imm) 2 zext) s

/-- LWU (R59). -/
def execLwu (rd rs1 : BitVec 5) (imm : BitVec 12) (s : State) : Host.Outcome State Fault Refusal :=
  retiring (loadTo rd (s.addr rs1 imm) 4 zext) s

/-- SB (R59): stores the low 1 byte of x[rs2]. -/
def execSb (rs1 rs2 : BitVec 5) (imm : BitVec 12) (s : State) : Host.Outcome State Fault Refusal :=
  retiring (scalarStore (s.addr rs1 imm) 1 ((s.x rs2).toNat % 2 ^ 8)) s

/-- SH (R59): stores the low 2 bytes of x[rs2]. -/
def execSh (rs1 rs2 : BitVec 5) (imm : BitVec 12) (s : State) : Host.Outcome State Fault Refusal :=
  retiring (scalarStore (s.addr rs1 imm) 2 ((s.x rs2).toNat % 2 ^ 16)) s

/-- SW (R59): stores the low 4 bytes of x[rs2]. -/
def execSw (rs1 rs2 : BitVec 5) (imm : BitVec 12) (s : State) : Host.Outcome State Fault Refusal :=
  retiring (scalarStore (s.addr rs1 imm) 4 ((s.x rs2).toNat % 2 ^ 32)) s

/-- SD (R59): stores the low 8 bytes of x[rs2]. -/
def execSd (rs1 rs2 : BitVec 5) (imm : BitVec 12) (s : State) : Host.Outcome State Fault Refusal :=
  retiring (scalarStore (s.addr rs1 imm) 8 ((s.x rs2).toNat % 2 ^ 64)) s

/-- FENCE (R61): executed as kfence at module scope, or at system scope where a set names I or O; rs1 and rd are ignored. -/
def execFence (_fm pred succ : BitVec 4) (_rs1 _rd : BitVec 5) (s : State) : Host.Outcome State Fault Refusal :=
  retiring (fenceOp pred succ (if (pred ||| succ) &&& 12 ≠ 0 then 4 else 3)) s

/-- FENCE.I (R60 item 5, R254): empties the instruction cache and drops every block buffer not in use. -/
def execFenceI (_rd _rs1 : BitVec 5) (_imm : BitVec 12) (s : State) : Host.Outcome State Fault Refusal :=
  retiring (modify State.invalidateFetch) s

/-- AMOADD.W (R59, R62, R306). -/
def execAmoaddW (rd rs1 rs2 : BitVec 5) (aq rl : BitVec 1) (s : State) : Host.Outcome State Fault Refusal :=
  retiring (amo .fetchAdd 4 (fun a b => (a + b) % 2 ^ 32) rd rs1 rs2 aq rl) s

/-- AMOADD.D (R59, R62, R306). -/
def execAmoaddD (rd rs1 rs2 : BitVec 5) (aq rl : BitVec 1) (s : State) : Host.Outcome State Fault Refusal :=
  retiring (amo .fetchAdd 8 (fun a b => (a + b) % 2 ^ 64) rd rs1 rs2 aq rl) s

/-- AMOSWAP.W (R59, R62, R306). -/
def execAmoswapW (rd rs1 rs2 : BitVec 5) (aq rl : BitVec 1) (s : State) : Host.Outcome State Fault Refusal :=
  retiring (amo .swap 4 (fun _ b => b) rd rs1 rs2 aq rl) s

/-- AMOSWAP.D (R59, R62, R306). -/
def execAmoswapD (rd rs1 rs2 : BitVec 5) (aq rl : BitVec 1) (s : State) : Host.Outcome State Fault Refusal :=
  retiring (amo .swap 8 (fun _ b => b) rd rs1 rs2 aq rl) s

/-- AMOXOR.W (R59, R62, R306). -/
def execAmoxorW (rd rs1 rs2 : BitVec 5) (aq rl : BitVec 1) (s : State) : Host.Outcome State Fault Refusal :=
  retiring (amo .other 4 (fun a b => a ^^^ b) rd rs1 rs2 aq rl) s

/-- AMOXOR.D (R59, R62, R306). -/
def execAmoxorD (rd rs1 rs2 : BitVec 5) (aq rl : BitVec 1) (s : State) : Host.Outcome State Fault Refusal :=
  retiring (amo .other 8 (fun a b => a ^^^ b) rd rs1 rs2 aq rl) s

/-- AMOOR.W (R59, R62, R306). -/
def execAmoorW (rd rs1 rs2 : BitVec 5) (aq rl : BitVec 1) (s : State) : Host.Outcome State Fault Refusal :=
  retiring (amo .other 4 (fun a b => a ||| b) rd rs1 rs2 aq rl) s

/-- AMOOR.D (R59, R62, R306). -/
def execAmoorD (rd rs1 rs2 : BitVec 5) (aq rl : BitVec 1) (s : State) : Host.Outcome State Fault Refusal :=
  retiring (amo .other 8 (fun a b => a ||| b) rd rs1 rs2 aq rl) s

/-- AMOAND.W (R59, R62, R306). -/
def execAmoandW (rd rs1 rs2 : BitVec 5) (aq rl : BitVec 1) (s : State) : Host.Outcome State Fault Refusal :=
  retiring (amo .other 4 (fun a b => a &&& b) rd rs1 rs2 aq rl) s

/-- AMOAND.D (R59, R62, R306). -/
def execAmoandD (rd rs1 rs2 : BitVec 5) (aq rl : BitVec 1) (s : State) : Host.Outcome State Fault Refusal :=
  retiring (amo .other 8 (fun a b => a &&& b) rd rs1 rs2 aq rl) s

/-- AMOMIN.W (R59, R62, R306). -/
def execAmominW (rd rs1 rs2 : BitVec 5) (aq rl : BitVec 1) (s : State) : Host.Outcome State Fault Refusal :=
  retiring (amo .other 4 (minSigned 4) rd rs1 rs2 aq rl) s

/-- AMOMIN.D (R59, R62, R306). -/
def execAmominD (rd rs1 rs2 : BitVec 5) (aq rl : BitVec 1) (s : State) : Host.Outcome State Fault Refusal :=
  retiring (amo .other 8 (minSigned 8) rd rs1 rs2 aq rl) s

/-- AMOMAX.W (R59, R62, R306). -/
def execAmomaxW (rd rs1 rs2 : BitVec 5) (aq rl : BitVec 1) (s : State) : Host.Outcome State Fault Refusal :=
  retiring (amo .other 4 (maxSigned 4) rd rs1 rs2 aq rl) s

/-- AMOMAX.D (R59, R62, R306). -/
def execAmomaxD (rd rs1 rs2 : BitVec 5) (aq rl : BitVec 1) (s : State) : Host.Outcome State Fault Refusal :=
  retiring (amo .other 8 (maxSigned 8) rd rs1 rs2 aq rl) s

/-- AMOMINU.W (R59, R62, R306). -/
def execAmominuW (rd rs1 rs2 : BitVec 5) (aq rl : BitVec 1) (s : State) : Host.Outcome State Fault Refusal :=
  retiring (amo .other 4 (fun a b => min a b) rd rs1 rs2 aq rl) s

/-- AMOMINU.D (R59, R62, R306). -/
def execAmominuD (rd rs1 rs2 : BitVec 5) (aq rl : BitVec 1) (s : State) : Host.Outcome State Fault Refusal :=
  retiring (amo .other 8 (fun a b => min a b) rd rs1 rs2 aq rl) s

/-- AMOMAXU.W (R59, R62, R306). -/
def execAmomaxuW (rd rs1 rs2 : BitVec 5) (aq rl : BitVec 1) (s : State) : Host.Outcome State Fault Refusal :=
  retiring (amo .other 4 (fun a b => max a b) rd rs1 rs2 aq rl) s

/-- AMOMAXU.D (R59, R62, R306). -/
def execAmomaxuD (rd rs1 rs2 : BitVec 5) (aq rl : BitVec 1) (s : State) : Host.Outcome State Fault Refusal :=
  retiring (amo .other 8 (fun a b => max a b) rd rs1 rs2 aq rl) s

/-- LR.W (R59, R62, R306). -/
def execLrW (rd rs1 : BitVec 5) (aq rl : BitVec 1) (s : State) : Host.Outcome State Fault Refusal :=
  retiring (loadReserved 4 rd rs1 aq rl) s

/-- SC.W (R59, R62, R306). -/
def execScW (rd rs1 rs2 : BitVec 5) (aq rl : BitVec 1) (s : State) : Host.Outcome State Fault Refusal :=
  retiring (storeConditional 4 rd rs1 rs2 aq rl) s

/-- LR.D (R59, R62, R306). -/
def execLrD (rd rs1 : BitVec 5) (aq rl : BitVec 1) (s : State) : Host.Outcome State Fault Refusal :=
  retiring (loadReserved 8 rd rs1 aq rl) s

/-- SC.D (R59, R62, R306). -/
def execScD (rd rs1 rs2 : BitVec 5) (aq rl : BitVec 1) (s : State) : Host.Outcome State Fault Refusal :=
  retiring (storeConditional 8 rd rs1 rs2 aq rl) s

end Sys2Proof.Machine
end

