-- ==== Sys2Proof/Machine/Csr.lean ====
section
/-! DEFINITION. CSR access (03_control_thread R63 to R65; the field maps of each chapter; the machine and supervisor
CSRs of the adopted privileged specification, 14_system_traps R328 to R330, 08 R182). -/

namespace Sys2Proof.Machine

/-- A Bool as a number. -/
def num (b : Bool) : Nat := if b then 1 else 0

/-- kvcfg (R104). -/
def VCfg.word (c : VCfg) : Word := BitVec.ofNat 64
  (num c.vlx * 2 ^ 24 + c.g * 2 ^ 16 + c.npend.toNat * 2 ^ 14 + c.nreg.toNat * 2 ^ 12 + num c.pwr * 2 ^ 11 +
    c.frm.toNat * 2 ^ 8 + num c.ord * 2 ^ 7 + num c.tail * 2 ^ 6 + c.scope.toNat * 8 + c.sew.toNat)

/-- kvcfg from its word, as a restore reads it (R337). -/
def VCfg.ofWord (w : Word) : VCfg :=
  ⟨bit w 24, field w 16 8, w.extractLsb' 14 2, w.extractLsb' 12 2, bit w 11, w.extractLsb' 8 3, bit w 7, bit w 6,
    w.extractLsb' 3 3, w.extractLsb' 0 3⟩

/-- Field LM (R233). -/
def LaneMode.code : LaneMode → Nat
  | .vector => 0
  | .threaded => 1
  | .matrix => 2

/-- Field TS (R225). -/
def TileState.code : TileState → Nat
  | .off => 0
  | .initial => 1
  | .clean => 2
  | .dirty => 3

/-- The tile state a code names (R225). -/
def TileState.ofCode (v : Nat) : TileState :=
  match v with | 0 => .off | 1 => .initial | 2 => .clean | _ => .dirty

/-- A byte with bit s set where slot s is in a state that a test accepts (R233). -/
def MatState.slotMask (m : MatState) (p : SlotState → Bool) : Nat :=
  (List.range 8).foldl (fun a i => a + (if p (m.slots[i]?.getD .free) then 2 ^ i else 0)) 0

/-- kxstatus (R233). -/
def MatState.status (m : MatState) : Word :=
  let sw := match m.phase with | .switching _ => true | _ => false
  let fill := m.slotMask fun x => x ≠ .free ∧ x ≠ .ready
  let claim := m.slotMask fun x => x ≠ .free
  BitVec.ofNat 64 (fill * 2 ^ 24 + claim * 2 ^ 16 + m.wslot.toNat * 2 ^ 12 + m.wfmt.toNat * 2 ^ 9 + num m.wv * 2 ^ 8 +
    num m.sk1 * 2 ^ 7 + num m.sk0 * 2 ^ 6 + m.ts.code * 16 + num sw * 8 + m.mode.code)

/-- kmpred (R231). -/
def MatState.pred (m : MatState) : Word :=
  BitVec.ofNat 64 (m.predDepth.toNat * 2 ^ 16 + m.predCols.toNat * 2 ^ 8 + m.predRows.toNat)

/-- Every slot Free and zero, no weights armed, no tile skewed (R225, R235). -/
def MatState.clearSlots (m : MatState) : MatState :=
  { m with slots := Vector.replicate 8 .free, store := [], wv := false, sk0 := false, sk1 := false }

/-- A supervisor write of TS (R234): 00 outside vector mode and 01 in matrix mode are refused; 00 and 01 free and zero
every slot; 10 and 11 set TS alone. -/
def MatState.writeTs (v : Nat) (m : MatState) : MatState :=
  if v = 0 then (if m.mode = .vector then { m.clearSlots with ts := .off } else m)
  else if v = 1 then (if m.mode = .matrix then m else { m.clearSlots with ts := .initial })
  else { m with ts := TileState.ofCode v }

/-- krace (R286). -/
def Krace.word (k : Krace) : Word := BitVec.ofNat 64
  (k.count.toNat * 2 ^ 48 + num k.acc * 2 ^ 34 + k.writer.toNat * 2 ^ 16 + k.phase.toNat)

/-- krace from its word (R337). -/
def Krace.ofWord (w : Word) : Krace := ⟨w.extractLsb' 48 16, bit w 34, w.extractLsb' 16 18, w.extractLsb' 0 16⟩

/-- k2dshape (R211). -/
def VecState.shape2d (v : VecState) : Word := BitVec.ofNat 64 (v.pitch.toNat * 2 ^ 16 + v.rows.toNat)

/-- kseed (R159). -/
def VecState.kseed (v : VecState) : Word := BitVec.ofNat 64 (v.bqDelta.toNat * 2 ^ 32 + v.seed.toNat)

/-- kpwgrant (R364). -/
def State.kpwgrant (s : State) : Word :=
  let p := s.core.power
  let cl := s.cluster (s.core.id / 12)
  let lim := decide (cl.ceil < 128 ∨ 0 < cl.cap)
  BitVec.ofNat 64 (p.held * 2 ^ 32 + num lim * 2 ^ 26 + p.cap * 2 ^ 24 + p.vol * 2 ^ 16 + cl.ceil * 2 ^ 8 +
    s.offerField s.core.id)

/-- Field STATE of ksiding (R329). -/
def SidingState.code : SidingState → Nat
  | .empty => 0
  | .held => 1
  | .shadow => 2

/-- ksiding (R329). -/
def Siding.word (d : Siding) : Word := setField (setField d.record 0 6 0) 0 2 d.state.code

/-- ktrapctl (R329). -/
def Csrs.trapctl (c : Csrs) : Word := BitVec.ofNat 64 (c.trapLimit.toNat * 16 + c.trapDepth.toNat)

/-- mstatus as it reads: SD summarises FS. -/
def Csrs.status (c : Csrs) : Word := setBit c.mstatus 63 (field c.mstatus 13 2 == 3)

/-- The bits of mstatus that sstatus shows: SIE, SPIE, SPP, FS, SUM, MXR, UXL, SD. -/
def sstatusMask : Word := 0x80000003000C6122#64

/-- The bits of mstatus that software writes: SIE, MIE, SPIE, MPIE, SPP, MPP, FS, MPRV, SUM, MXR, TVM, TW, TSR. -/
def mstatusWrite : Word := 0x7E79AA#64

/-- The writable bits of medeleg (R328). -/
def medelegMask : Word := 0x3F0000FF00B3FF#64

/-- The writable bits of mideleg: 1, 5, 9 and 16 to 19 (R328). -/
def midelegMask : Word := 0xF0222#64

/-- The interrupts that mie enables: the standard ones and the device's 16 to 19 (R328). -/
def mieMask : Word := 0xF0AAA#64

/-- misa: I, M, A, F, S and U of RV64 (R59). -/
def misaWord : Word := 0x8000000000141121#64

/-- Replaces the masked bits of a word. -/
def mergeBits (old mask v : Word) : Word := (old &&& ~~~mask) ||| (v &&& mask)

/-- A write of mip: SSIP, STIP and SEIP are software's; writing 0 clears 17 to 19 and writing 1 leaves them; bit 16 is
read-only (R328). -/
def mergePending (old writable v : Word) : Word :=
  mergeBits old (writable &&& 0x222#64) v &&& (v ||| ~~~(writable &&& 0xE0000#64))

/-- A trap vector: direct or vectored. -/
def legalVector (v : Word) : Word := setBit v 1 false

/-- mstatus after a write; MPP keeps its value where the written one names no mode. -/
def writeMstatus (old v : Word) : Word :=
  let w := mergeBits old mstatusWrite v
  if field w 11 2 = 2 then setField w 11 2 (field old 11 2) else w

/-- F is on: FS is not Off. -/
def State.fpOn (s : State) : Bool := field s.core.csr.mstatus 13 2 != 0

/-- A counter is readable in the mode in force: mcounteren below machine mode, scounteren too in user mode (R64). -/
def State.counterOk (s : State) (i : Nat) : Bool :=
  match s.core.priv with
  | .machine => true
  | .supervisor => bit s.core.csr.mcounteren i
  | .user => bit s.core.csr.mcounteren i && bit s.core.csr.scounteren i

/-- mhpmcounter3 to 31 and mhpmevent3 to 31: the adopted specification has them, and here they read zero and ignore
writes (R60 item 7, log entry 5). -/
def isHpm (a : Nat) : Bool := (0xB03 ≤ a && a ≤ 0xB1F) || (0x323 ≤ a && a ≤ 0x33F)

/-- The value of a CSR in the mode in force; none where the address is undefined or may not be accessed (R5, R63 to
R65, R329). The range [9:8] of the address gives the lowest privilege. -/
def State.readCsr (s : State) (a : Nat) : Option Word :=
  let c := s.core.csr
  let v := s.core.vec
  let m := s.core.mat
  if s.core.priv.code < a / 256 % 4 then none else
  match a with
  | 0x001 => if s.fpOn then some (s.core.fflags.setWidth 64) else none
  | 0x002 => if s.fpOn then some (s.core.frm.setWidth 64) else none
  | 0x003 => if s.fpOn then some ((s.core.frm ++ s.core.fflags).setWidth 64) else none
  | 0xC00 => if s.counterOk 0 then some s.core.cycle else none
  | 0xC01 => if s.counterOk 1 then some (BitVec.ofNat 64 s.tick) else none
  | 0xC02 => if s.counterOk 2 then some s.core.instret else none
  | 0x100 => some (c.status &&& sstatusMask)
  | 0x104 => some (c.mie &&& c.mideleg)
  | 0x105 => some c.stvec
  | 0x106 => some c.scounteren
  | 0x10A => some c.senvcfg
  | 0x140 => some c.sscratch
  | 0x141 => some c.sepc
  | 0x142 => some c.scause
  | 0x143 => some c.stval
  | 0x144 => some (c.mip &&& c.mideleg)
  | 0x180 => if s.core.priv = .supervisor && bit c.mstatus 20 then none else some c.satp
  | 0x300 => some c.status
  | 0x301 => some misaWord
  | 0x302 => some c.medeleg
  | 0x303 => some c.mideleg
  | 0x304 => some c.mie
  | 0x305 => some c.mtvec
  | 0x306 => some c.mcounteren
  | 0x30A => some c.menvcfg
  | 0x320 => some c.mcountinhibit
  | 0x340 => some c.mscratch
  | 0x341 => some c.mepc
  | 0x342 => some c.mcause
  | 0x343 => some c.mtval
  | 0x344 => some c.mip
  | 0xB00 => some s.core.cycle
  | 0xB02 => some s.core.instret
  | 0xF11 => some 0
  | 0xF12 => some 0
  | 0xF13 => some 0
  | 0xF14 => some (BitVec.ofNat 64 s.core.id)
  | 0xF15 => some 0
  | 0x5C0 => some s.kregbase
  | 0x5C1 => some c.kresvec
  | 0x5C2 => some s.core.siding.word
  | 0x5C3 => some c.trapctl
  | 0x5C8 => some (BitVec.ofNat 64 m.ts.code)
  | 0x800 => some (v.kvstart.setWidth 64)
  | 0x801 => some (v.kvfe.setWidth 64)
  | 0x802 => some (v.kvfflags.setWidth 64)
  | 0x803 => some v.kseed
  | 0x804 => some v.kstripbase
  | 0x805 => some v.kstripcnt
  | 0x806 => some (m.kmstep.setWidth 64)
  | 0x807 => some m.pred
  | 0x808 => some v.shape2d
  | 0x809 => some v.kcpshape
  | 0xCC0 => some (v.kvl.setWidth 64)
  | 0xCC1 => some v.cfg.word
  | 0xCC2 => some (v.kvlmax.setWidth 64)
  | 0xCC3 => some (v.kvdirty.setWidth 64)
  | 0xCC4 => some m.status
  | 0xCC5 => some (BitVec.ofNat 64 (kmrowsOf v.laneMap))
  | 0xCC6 => some 64
  | 0xCC7 => some (v.laneMap.extractLsb' 0 64)
  | 0xCC8 => some (v.laneMap.extractLsb' 64 64)
  | 0xCC9 => some (BitVec.ofNat 64 s.tick)
  | 0xCCA => some s.kpwgrant
  | 0xCCB => some s.core.power.kballast
  | 0xCCC => some s.core.krace.word
  | 0xCCD => some s.core.khintdrop
  | 0xCCE => some s.mem.kracelapse
  | 0xCCF => some (BitVec.ofNat 64 s.core.id)
  | _ => if isHpm a then some 0 else none

/-- F state becomes Dirty (R75, R337). -/
def Csrs.fpDirty (c : Csrs) : Csrs := { c with mstatus := setField c.mstatus 13 2 3 }

/-- The state after a write of a CSR that exists and may be written; fields of each register keep to R4 and R5. -/
def State.writeCsr (a : Nat) (w : Word) (s : State) : State :=
  match a with
  | 0x001 => s.mapCore fun c => { c with fflags := w.setWidth 5, csr := c.csr.fpDirty }
  | 0x002 => s.mapCore fun c => { c with frm := w.setWidth 3, csr := c.csr.fpDirty }
  | 0x003 => s.mapCore fun c =>
      { c with fflags := w.setWidth 5, frm := w.extractLsb' 5 3, csr := c.csr.fpDirty }
  | 0x100 => s.mapCsr fun c => { c with mstatus := writeMstatus c.mstatus (mergeBits c.mstatus sstatusMask w) }
  | 0x104 => s.mapCsr fun c => { c with mie := mergeBits c.mie (c.mideleg &&& mieMask) w }
  | 0x105 => s.mapCsr fun c => { c with stvec := legalVector w }
  | 0x106 => s.mapCsr fun c => { c with scounteren := w &&& 7 }
  | 0x10A => s.mapCsr fun c => { c with senvcfg := w &&& 1 }
  | 0x140 => s.mapCsr fun c => { c with sscratch := w }
  | 0x141 => s.mapCsr fun c => { c with sepc := setField w 0 2 0 }
  | 0x142 => s.mapCsr fun c => { c with scause := w }
  | 0x143 => s.mapCsr fun c => { c with stval := w }
  | 0x144 => s.mapCsr fun c => { c with mip := mergePending c.mip (c.mideleg &&& 0xE0002#64) w }
  | 0x180 => s.mapCsr fun c => if field w 60 4 = 0 || field w 60 4 = 14 then { c with satp := w } else c
  | 0x300 => s.mapCsr fun c => { c with mstatus := writeMstatus c.mstatus w }
  | 0x302 => s.mapCsr fun c => { c with medeleg := w &&& medelegMask }
  | 0x303 => s.mapCsr fun c => { c with mideleg := w &&& midelegMask }
  | 0x304 => s.mapCsr fun c => { c with mie := w &&& mieMask }
  | 0x305 => s.mapCsr fun c => { c with mtvec := legalVector w }
  | 0x306 => s.mapCsr fun c => { c with mcounteren := w &&& 7 }
  | 0x30A => s.mapCsr fun c => { c with menvcfg := w &&& 1 }
  | 0x320 => s.mapCsr fun c => { c with mcountinhibit := w &&& 5 }
  | 0x340 => s.mapCsr fun c => { c with mscratch := w }
  | 0x341 => s.mapCsr fun c => { c with mepc := setField w 0 2 0 }
  | 0x342 => s.mapCsr fun c => { c with mcause := w }
  | 0x343 => s.mapCsr fun c => { c with mtval := w }
  | 0x344 => s.mapCsr fun c => { c with mip := mergePending c.mip 0xE0222#64 w }
  | 0xB00 => s.mapCore fun c => { c with cycle := w }
  | 0xB02 => s.mapCore fun c => { c with instret := if bit c.csr.mcountinhibit 2 then w else w - 1 }
  | 0x5C0 => { s with kregbase := setField w 0 20 0 }
  | 0x5C1 => s.mapCsr fun c => { c with kresvec := setField w 0 2 0 }
  | 0x5C3 => s.mapCsr fun c =>
      { c with trapLimit := if field w 4 3 = 0 then 1 else w.extractLsb' 4 3 }
  | 0x5C8 => s.mapMat (MatState.writeTs (field w 0 2))
  | 0x800 => s.mapVec fun v => { v with kvstart := w.setWidth 17 }
  | 0x801 => s.mapVec fun v => { v with kvfe := w.setWidth 32 }
  | 0x802 => s.mapVec fun v => { v with kvfflags := w.setWidth 5 }
  | 0x803 => s.mapVec fun v => { v with seed := w.setWidth 32, bqDelta := w.extractLsb' 32 4 }
  | 0x804 => s.mapVec fun v => { v with kstripbase := w }
  | 0x805 => s.mapVec fun v => { v with kstripcnt := w }
  | 0x806 => s.mapMat fun m => { m with kmstep := w.setWidth 16 }
  | 0x807 => s.mapMat fun m =>
      { m with predDepth := w.extractLsb' 16 16, predCols := w.extractLsb' 8 7, predRows := w.extractLsb' 0 8 }
  | 0x808 => s.mapVec fun v => { v with pitch := w.extractLsb' 16 32, rows := w.setWidth 16 }
  | 0x809 => s.mapVec fun v => { v with kcpshape := w &&& ~~~0x60#64 }
  | _ => s

end Sys2Proof.Machine
end

