-- ==== Sys2Proof/Machine/ErrorLog.lean ====
section
/-! DEFINITION. Writes of the device's own agents, and the error log (16_device_service R376 to R379). -/

namespace Sys2Proof.Machine

/-- A write by the device: it revives the page it lies in where that is discarded (R189), its sector becomes untagged, and
reservations on its line are lost (R62, R282, R292). -/
def State.deviceWrite (pa n v : Nat) (s : State) : State :=
  (((s.reviveAt none none pa).writePA pa n v).mapMem (MemState.untag pa)).breakReservations none pa

/-- The sectors that the `n` bytes from an address cover whole. -/
def wholeSectors (a n : Nat) : List Nat :=
  ((List.range (n / 32)).map fun i => (a + 31) / 32 * 32 + 32 * i).filter fun k => k + 32 ≤ a + n

/-- Sectors that have been written whole lose their poison (R376). -/
def State.healSectors (l : List Nat) (s : State) : State := l.foldl (fun s a => s.mapMem (MemState.heal a)) s

/-- Doublewords that the device writes from an address on (R376). -/
def State.deviceWords (pa : Nat) (ws : List Nat) (s : State) : State :=
  ((ws.zip (List.range ws.length)).foldl (fun s w => s.deviceWrite (pa + 8 * w.2) 8 w.1) s).healSectors
    (wholeSectors pa (8 * ws.length))

/-- What an entry of the error log says (R378). -/
structure LogEvent where
  source : Nat
  sev : Nat
  unit : Nat
  lane : Nat
  addr : Nat
  snapshot : Nat
deriving DecidableEq, Repr

/-- The number of entries in a ring (R378). -/
def logEntries : Nat := 256

/-- Writes entry NEXT of a die's ring and advances NEXT (R378, R379). -/
def State.writeLogEntry (d : Nat) (e : LogEvent) (s : State) : State :=
  let die := s.die d
  let base := die.logBase
  let next := s.readPA base 8
  let lost := s.readPA (base + 16) 8
  let entry := [next, e.source + e.sev * 2 ^ 8 + e.unit * 2 ^ 16 + e.lane * 2 ^ 32, e.addr, s.tick,
    e.snapshot % 2 ^ 32 + lost * 2 ^ 32, die.corrected.toNat, die.uncorrected.toNat, 0]
  let s := s.deviceWords (base + 64 + 64 * (next % logEntries)) entry
  s.deviceWrite base 8 (next + 1)

/-- The logger records an event (R379): a full ring counts it as lost; interrupt 19 becomes pending on every core of
the die that enables it. A die whose ring firmware has not placed writes nothing (log entry 21). -/
def State.logEvent (d : Nat) (e : LogEvent) (s : State) : State :=
  let base := (s.die d).logBase
  let full := (s.readPA base 8 + 2 ^ 64 - s.readPA (base + 8) 8) % 2 ^ 64 = logEntries
  let s := if base = 0 then s
    else if full then s.deviceWrite (base + 16) 8 (s.readPA (base + 16) 8 + 1)
    else s.writeLogEntry d e
  let s := s.mapDie d fun k => { k with lastLog := some (s.tick, e.unit) }
  s.mapCores fun c => if dieOf c.id = d then c.pendIfEnabled 19 else c

/-- A die's logger has taken an event of a higher UNIT in this station tick (R379). -/
def State.loggedAbove (s : State) (d unit : Nat) : Bool :=
  (s.die d).lastLog.any fun l => l.1 == s.tick && decide (unit < l.2)

/-- The counter of a source, unit and lane (R376). -/
def Die.counter (d : Die) (source unit lane : Nat) : Nat :=
  match d.counters.find? fun c => c.source = source ∧ c.unit = unit ∧ c.lane = lane with
  | some c => c.count.toNat
  | none => 0

/-- One more error of a source, unit and lane: its 32-bit counter saturates, and the die's total grows (R376, R378). -/
def Die.count (d : Die) (corrected : Bool) (source unit lane : Nat) : Die :=
  let n := min (2 ^ 32 - 1) (d.counter source unit lane + 1)
  { d with
    counters := ⟨source, unit, lane, BitVec.ofNat 32 n⟩ ::
      d.counters.filter fun c => !(c.source = source && c.unit = unit && c.lane = lane)
    corrected := if corrected then d.corrected + 1 else d.corrected
    uncorrected := if corrected then d.uncorrected else d.uncorrected + 1 }

/-- The SEV 1 events that no store brings about (SOURCE 7 to 9): they are counted for their UNIT and in the die's total of
uncorrectable errors as any event is (R378). -/
def State.countEvent (die source unit addr : Nat) (s : State) : State :=
  let s := s.mapDie die fun d => d.count false source unit 0
  s.logEvent die ⟨source, 1, unit, 0xFFFF, addr, (s.die die).counter source unit 0⟩

end Sys2Proof.Machine
end

