-- ==== Sys2Proof/Machine/Schedule.lean ====
section
/-! DEFINITION. Continuation records, the regions' queues and successor steps (04_work R72 to R78), the signal boxes'
selection, dispatch and pre-emption (R80 to R86, 01_machine R25), and fault domains (R85, 14_system_traps R344 to
R347). -/

namespace Sys2Proof.Machine

/-! ### Records and queues -/

/-- The address a leaf gives for a virtual address. -/
def TlbEntry.addr (e : TlbEntry) (va : Word) : Nat := e.base + va.toNat % 2 ^ leafBits e.level

/-- The address space in which the device finds the records and frames of a region, on pages of either privilege (R330; DEDUCED,
log entry 22). -/
def State.recordSpace (s : State) (g : Nat) : Space := ⟨s.regionSatp g, .supervisor, true, false, .engine 0⟩

/-- Where the device finds a record or a frame of a region: through the region's entry of the address table, or at the
address itself where that gives no translation (R330; log entry 22). -/
def State.recordPa (s : State) (g : Nat) (a : Word) : Nat :=
  match s.walk (s.recordSpace g) a with
  | .ok (e, _) => e.addr a
  | .error _ => a.toNat

/-- `check_page` of R87, for read and for write, of a record that the device itself places as `cspawn` would (R88, R346, R385): its
address is a multiple of 64, and the region's tables let it be read and written in device memory. -/
def State.pagePasses (s : State) (g : Nat) (a : Word) : Bool :=
  let sp := s.recordSpace g
  a.toNat % 64 == 0 && [Acc.load, .store].all fun acc =>
    match s.walk sp a with
    | .error _ => false
    | .ok (e, _) => match s.checkLeaf sp acc a e with
      | .ok pa => isHbm pa
      | .error _ => false

/-- What the device's access to a record or a frame of a region leaves behind: the lines of its walk are touched, and A, and D
for a write, are set in the leaf (R179, R186), a write that is no core's own (R62). -/
def State.reach (g : Nat) (a : Word) (write : Bool) (s : State) : State :=
  let sp := s.recordSpace g
  let t := (s.walked sp a).foldl (fun t w => t.touchFor (some g) w.2.addr .normal false) s
  match s.walk sp a with
  | .error _ => t
  | .ok (e, _) =>
    let need : Word := if write then 0xC0#64 else 0x40#64
    if e.pte &&& need = need then t else t.orLeaf none e need

/-- A doubleword of a frame of a region, each byte where its own address lies: FRAME need not be a multiple of 8, and two pages of
a frame may lie apart (R25, R72). -/
def State.frameWord (s : State) (g : Nat) (a : Word) : Nat :=
  leValue ((List.range 8).map fun i => BitVec.ofNat 8 (s.readPA (s.recordPa g (a + BitVec.ofNat 64 i)) 1))

/-- The device writes a doubleword of a frame of a region, each byte where its own address lies (R346). -/
def State.putFrame (g : Nat) (a : Word) (v : Nat) (s : State) : State :=
  ((leBytes 8 v).zip (List.range 8)).foldl (fun s b => s.deviceWrite (s.recordPa g (a + BitVec.ofNat 64 b.2)) 1 b.1.toNat)
    ((s.reach g a true).reach g (a + 7) true)

/-- CODE of the record at a physical address (R72). -/
def State.recCode (s : State) (p : Nat) : Nat := s.readPA p 8
/-- FRAME (R72). -/
def State.recFrame (s : State) (p : Nat) : Nat := s.readPA (p + 8) 8
/-- SUCC (R72). -/
def State.recSucc (s : State) (p : Nat) : Nat := s.readPA (p + 16) 8
/-- LINK (R72). -/
def State.recLink (s : State) (p : Nat) : Nat := s.readPA (p + 24) 8
/-- TOTAL (R72). -/
def State.recTotal (s : State) (p : Nat) : Nat := s.readPA (p + 32) 8
/-- NEXT (R72). -/
def State.recNext (s : State) (p : Nat) : Nat := s.readPA (p + 40) 8
/-- JOIN (R72). -/
def State.recJoin (s : State) (p : Nat) : Nat := s.readPA (p + 48) 4
/-- REGION, all 16 bits: a value above 4,095 names no region, so that a record whose bits [15:12] are not zero has status 1,
where R88 could have 2 for reserved bits (DESIGN CHOICE, log entry 78). -/
def State.recRegion (s : State) (p : Nat) : Nat := s.readPA (p + 52) 2
/-- WIDTH (R72). -/
def State.recWidth (s : State) (p : Nat) : Nat := s.readPA (p + 54) 1
/-- FLAGS (R72). -/
def State.recFlags (s : State) (p : Nat) : Nat := s.readPA (p + 55) 1
/-- HOLDERS (R72). -/
def State.recHolders (s : State) (p : Nat) : Nat := s.readPA (p + 56) 4
/-- The reserved bytes (R72). -/
def State.recReserved (s : State) (p : Nat) : Nat := s.readPA (p + 60) 4

/-- FLAGS.STRIPED (R72). -/
def State.recStriped (s : State) (p : Nat) : Bool := (s.recFlags p).testBit 0

/-- A striped record with nothing left to claim (R77). -/
def State.recEmpty (s : State) (p : Nat) : Bool := s.recStriped p && s.recNext p == s.recTotal p

/-- QHEAD of a region's RCB (R69). -/
def State.qhead (s : State) (g : Nat) : Nat := s.rcbField g 56 8
/-- QTAIL (R69). -/
def State.qtail (s : State) (g : Nat) : Nat := s.rcbField g 64 8
/-- RUNNING (R69). -/
def State.running (s : State) (g : Nat) : Nat := s.rcbField g 72 4
/-- QUEUED (R69). -/
def State.queued (s : State) (g : Nat) : Nat := s.rcbField g 76 4
/-- SAVED (R69). -/
def State.saved (s : State) (g : Nat) : Nat := s.rcbField g 80 4

/-- The records that wait in a region's queue, the first to leave first (R73). The device keeps the queue itself, and LINK, QHEAD,
QTAIL and QUEUED in memory show it: what software writes into the LINK of a held record reaches no queue (R74; log entry 93). -/
def State.queue (s : State) (g : Nat) : List Word := (lookup g s.queues).getD []

/-- A region's queue is replaced; an empty one is not listed. -/
def State.setQueue (g : Nat) (l : List Word) (s : State) : State :=
  { s with queues := if l.isEmpty then unassign g s.queues else assign g l s.queues }

/-- Writes a hw field of a live RCB. -/
def State.putRcb (g off n v : Nat) (s : State) : State := s.deviceWrite (s.rcb g + off) n v

/-- Adds to RUNNING (R69). -/
def State.addRunning (g : Nat) (d : Int) (s : State) : State := s.putRcb g 72 4 (wrap 32 (s.running g + d))
/-- Adds to SAVED (R69). -/
def State.addSaved (g : Nat) (d : Int) (s : State) : State := s.putRcb g 80 4 (wrap 32 (s.saved g + d))

/-- A region's deficit returns to 0 on every die when its queue becomes empty (R81). -/
def State.clearDeficit (g : Nat) (s : State) : State :=
  { s with dies := s.dies.map fun d => { d with deficits := unassign g d.deficits } }

/-- Appends the record at `a` to region g's queue (R73). -/
def State.append (g : Nat) (a : Word) (s : State) : State :=
  let old := s.queue g
  let s := (s.reach g a true).deviceWrite (s.recordPa g a + 24) 8 0
  let s := match old.getLast? with
    | none => s.putRcb g 56 8 a.toNat
    | some tail => (s.reach g tail true).deviceWrite (s.recordPa g tail + 24) 8 a.toNat
  let s := s.putRcb g 64 8 a.toNat
  (s.putRcb g 76 4 (old.length + 1)).setQueue g (old ++ [a])

/-- Pops the record at `a` from the head of region g's queue (R73); a record that is not at the head stays. The one behind it comes
to the head, whatever stands in LINK (R74). -/
def State.pop (g : Nat) (a : Word) (s : State) : State :=
  match s.queue g with
  | [] => s
  | h :: rest =>
    if h ≠ a then s else
    let s := s.putRcb g 56 8 (rest.headD 0).toNat
    let s := if rest.isEmpty then (s.putRcb g 64 8 0).clearDeficit g else s
    (s.putRcb g 76 4 rest.length).setQueue g rest

/-- A core holds a striped record: it is bound to a continuation of it, or its siding holds one (R77). -/
def Core.holdsRecord (g : Nat) (a : Word) (c : Core) : Bool :=
  let mine (k : Continuation) : Bool := k.striped && k.region == g && k.record == a
  c.cont.any mine || (c.siding.state == .held && c.siding.holder.any mine)

/-- The holders of a striped record: the cores bound to it that have not finished, a pre-empted one among them (R72, R77). The device
counts them itself, and HOLDERS in memory shows the count (R74; log entry 93). -/
def State.holders (s : State) (g : Nat) (a : Word) : Nat := (s.cores.filter (Core.holdsRecord g a)).length

/-- The successor step of R78 on the record at `a`, named by a record of region g, and the steps that empty striped
records perform at once; the result is false on a join underflow. No record is passed twice, since its JOIN is then 0,
so the bound on the records of the address space bounds the steps. A record that `cjoin` or a successor step has placed is checked by
no rule but R86's of its REGION, CODE and FLAGS: a SUCC of its that is not a multiple of 64 is taken as it stands (DESIGN CHOICE,
log entry 102). -/
def State.succStep : Nat → Nat → Word → State → State × Bool
  | 0, _, _, s => (s, false)
  | fuel + 1, g, a, s =>
    if a = 0 then (s, true) else
    let p := s.recordPa g a
    let join := s.recJoin p
    let k := s.recRegion p
    if join = 0 || (join = 1 && !s.accepts k) then (s.reach g a false, false)
    else
      let s := (s.reach g a true).deviceWrite (p + 48) 4 (join - 1)
      if join ≠ 1 then (s, true)
      else if s.recEmpty p then State.succStep fuel k (BitVec.ofNat 64 (s.recSucc p)) s
      else (s.append k a, true)

/-- A bound on the records of the address space. -/
def recordBound : Nat := 2 ^ 47

/-- The successor step of the record at physical address `p` of region g. -/
def State.finishRecord (g p : Nat) (s : State) : State × Bool :=
  s.succStep recordBound g (BitVec.ofNat 64 (s.recSucc p))

/-- REGION, CODE and FLAGS, as the selection read them, pass the checks of `cspawn` that a binding repeats (R74, R86). -/
def State.bindable (s : State) (k : Continuation) : Bool :=
  s.accepts k.named && k.code.toNat % 4 == 0 && k.flags / 2 == 0

/-- The status `cspawn` gives a record (R88): 1 a bad region, 2 malformed, 3 a non-zero join counter, 0 accepted.
`mine` says whether a region is open to the caller. -/
def State.recordStatus (s : State) (p : Nat) (mine : Nat → Bool) : Nat :=
  if !s.accepts (s.recRegion p) || !mine (s.recRegion p) then 1
  else if s.recCode p % 4 != 0 || 3 < s.recWidth p || s.recFlags p / 2 != 0 || s.recSucc p % 64 != 0 ||
      s.recLink p != 0 || s.recHolders p != 0 || s.recReserved p != 0 ||
      (s.recStriped p && s.recTotal p < s.recNext p) then 2
  else if s.recJoin p != 0 then 3
  else 0

/-- Places an accepted record: appended, or its successor step where it is empty (R77, R88). -/
def State.placeRecord (a : Word) (p : Nat) (s : State) : State × Bool :=
  let g := s.recRegion p
  if s.recEmpty p then s.finishRecord g p else (s.append g a, true)

/-! ### A core goes idle -/

/-- A copy state that is final (R316). -/
def CopyState.isFinal : CopyState → Bool
  | .done | .faulted | .cancelled => true
  | _ => false

/-- The lanes pending retirement leave the lane map at a context boundary (R377). -/
def Core.retireLanes (c : Core) : Core :=
  { c with vec := { c.vec with laneMap := c.vec.laneMap &&& ~~~c.pendingRetire }, pendingRetire := 0 }

/-- A core leaves its die's charge queue (R357). -/
def State.leaveQueues (core : Nat) (s : State) : State :=
  s.mapDie (dieOf core) fun d =>
    { d with charges := d.charges.filter fun q =>
        ¬[Payer.instruction core, .dispatch core, .requeue core, .pin core, .cap core].contains q.payer }

/-- An entry becomes Free; its generation stays (R315, R316). -/
def CopyEntry.free (e : CopyEntry) : CopyEntry := { CopyEntry.empty e.gen with advanced := e.advanced }

/-- A core goes idle (R86, R362): its stop request is met, and its load is released, or kept as held load (R341). -/
def State.goIdle (core : Nat) (keep : Bool) (s : State) : State :=
  let s := if keep then s.keepLoad core else s.releaseAll core
  let s := (s.leaveQueues core).updCore core fun c =>
    { c.meetStop.retireLanes.endInstr with
      run := .idle, cont := none, rampPending := false
      power := { c.meetStop.retireLanes.power with paid := false, pin := none } }
  { s with preemptions := s.preemptions.filter fun p => p.victim ≠ core }

/-- The siding's image is that of a continuation, which its region and its record name (R340). -/
def Siding.holds (d : Siding) (k : Continuation) : Bool := d.record == k.record && d.holder.any fun h => h.region == k.region

/-- The siding empties when the continuation it holds or shadows finishes or is quiesced (R340). -/
def Core.dropSiding (k : Continuation) (c : Core) : Core :=
  if c.siding.state ≠ .empty ∧ c.siding.holds k then
    { c with siding := { c.siding with state := .empty, record := 0, holder := none } }
  else c

/-- The core's matrix state leaves use: vector mode, tile state off, every slot free (R75, R91, R345). -/
def MatState.off (m : MatState) : MatState := { m.clearSlots with mode := .vector, phase := .none, ts := .off }

/-- The generation of an entry may advance: 40 station ticks have passed since it last did (R311). -/
def CopyEntry.spaced (e : CopyEntry) (now : Nat) : Bool := e.advanced.all fun t => decide (t + 40 ≤ now)

/-- A final state is reached (R316): the entry's promise and what its stop was for are done with. -/
def CopyEntry.finish (state : CopyState) (now : Nat) (e : CopyEntry) : CopyEntry :=
  { e with state := state, gen := e.gen + 1, tfinal := now, bySave := false, lost := false, advanced := some now }

/-- A stop is requested of a copy (R316, R317): towards Cancelled, or towards Suspended by `cpsusp` or a save. -/
def CopyEntry.requestStop (cancel save : Bool) (e : CopyEntry) : CopyEntry :=
  let stop : CopyEntry := { e with state := .stopping, toCancelled := cancel, bySave := save }
  match e.state with
  | .queued | .running => stop
  | .suspended => if cancel then stop else e
  | .stopping => if cancel then { e with toCancelled := true } else e
  | _ => e

/-- A stopping copy is at its chunk boundary (R311, R316): once its generation may advance, it is Suspended with its promise
voided, or Cancelled. -/
def CopyEntry.endStop (now : Nat) (e : CopyEntry) : CopyEntry :=
  if e.state ≠ .stopping || !e.spaced now then e
  else if e.toCancelled then e.finish .cancelled now
  else { e with state := .suspended, promise := 0, gen := e.gen + 1, accepted := false, begun := false, auto := e.bySave,
                bySave := false, advanced := some now }

/-- A copy is cancelled by quiescence (R345), through Stopping as any cancellation (R316). -/
def CopyEntry.quiesce (now : Nat) (e : CopyEntry) : CopyEntry :=
  ({ e with lost := false }.requestStop true false).endStop now

/-- Quiescence stops a core that is bound to a continuation of the domain (R345); copies whose generation may not advance yet
stay Stopping until it may (R311). -/
def State.quiesceCore (core : Nat) (s : State) : State :=
  match (s.coreOf core).cont with
  | none => s
  | some k =>
    let s := s.updCore core fun c =>
      { (c.dropSiding k) with
        mt := ThreadsState.reset, mat := c.mat.off, copies := c.copies.map (CopyEntry.quiesce s.tick), qc := [], headEngines := [] }
    (s.addRunning k.region (-1)).goIdle core false

/-! ### Fault domains -/

/-- The root of the fault domain of a region: up through every region that escalates (R85). -/
def State.domainRoot (s : State) : Nat → Nat → Nat
  | 0, g => g
  | fuel + 1, g => if g ≠ 0 && s.escalate g then s.domainRoot fuel (s.parent g) else g

/-- Empties a region's queue without successor steps (R85). -/
def State.dropQueue (g : Nat) (s : State) : State :=
  ((((s.putRcb g 56 8 0).putRcb g 64 8 0).putRcb g 76 4 0).clearDeficit g).setQueue g []

/-- Discards the saved continuation of a core where it belongs to a region that a test accepts (R85, R340). -/
def State.dropSaved (p : Nat → Bool) (core : Nat) (s : State) : State :=
  let d := (s.coreOf core).siding
  match d.holder with
  | some k =>
    if d.state = .held && p k.region && (s.coreOf core).cont.all (!d.holds ·) then
      (s.addSaved k.region (-1)).updCore core fun c => c.dropSiding k
    else s
  | none => s

/-- Quiesces the fault domain of region g with a report (R85, R344, R345): a fault inside a quiescing domain is
discarded. Cores in supervisor mode are asked to stop; the others stop at their next interruptible point. -/
def State.quiesce (g : Nat) (info : FaultInfo) (s : State) : State :=
  if s.quiescing g then s else
  let root := s.domainRoot maxLevel g
  let inside (k : Nat) : Bool := s.within root k
  let bound := (s.cores.filter fun c => c.cont.any fun k => inside k.region).map (·.id)
  let s := (s.live.filter inside).foldl (fun s k => s.dropQueue k) s
  let s := (s.cores.map (·.id)).foldl (fun s c => s.dropSaved inside c) s
  let s := s.mapCores fun c =>
    if c.cont.any (fun k => inside k.region) && c.priv ≠ .user then c.requestStop 3 else c
  { s with domains := ⟨root, info, bound, false⟩ :: s.domains }

/-- A core is bound to a continuation of a quiescing domain (R345). -/
def State.mustStop (s : State) (core : Nat) : Bool :=
  match (s.coreOf core).cont with | some k => s.quiescing k.region | none => false

/-- The nearest ancestor of a region, itself excluded, with a fault continuation, and that record's address (R85). -/
def State.faultCont (s : State) : Nat → Nat → Option (Nat × Nat)
  | 0, _ => none
  | fuel + 1, g =>
    if g = 0 then none
    else
      let a := s.parent g
      if s.rcbField a 48 8 ≠ 0 then some (a, s.rcbField a 48 8) else s.faultCont fuel a

/-- The doubleword at offset 8 of a fault report (R346). -/
def FaultInfo.word (i : FaultInfo) : Nat := i.cause % 256 + i.source % 256 * 2 ^ 8 + i.core % 65536 * 2 ^ 16

/-- Writes the fault report at the frame of the FAULTCONT record, and enqueues it as `cspawn` would (R346); a record
that fails the checks is dropped and logged with UNIT 0 (R378; DESIGN CHOICE, log entry 23). -/
def State.reportTo (i : FaultInfo) (owner : Nat) (a : Word) (s : State) : State :=
  let s := s.reach owner a false
  let p := s.recordPa owner a
  let f := BitVec.ofNat 64 (s.recFrame p)
  let words := [i.region, i.word, i.value.toNat, i.pc.toNat, i.code.toNat]
  let at_ (k : Nat) : Word := f + BitVec.ofNat 64 (8 * k)
  let s := (words.zip (List.range 5)).foldl (fun s w => s.putFrame owner (at_ w.2) w.1) s
  let s := s.healSectors ((wholeSectors f.toNat 40).map fun k => s.recordPa owner (BitVec.ofNat 64 k))
  let (s, ok) := if s.pagePasses owner a && s.recordStatus p (fun _ => true) == 0 then s.placeRecord a p else (s, false)
  if ok then s else s.countEvent 0 7 0 a.toNat

/-- A copy is Stopping. -/
def Core.stopsCopy (c : Core) : Bool := c.copies.any fun e => e.state == .stopping

/-- A copy that is under way: queued, running or stopping (R94, R316, R346). -/
def CopyEntry.outstanding (e : CopyEntry) : Bool := e.state == .queued || e.state == .running || e.state == .stopping

/-- A core has a copy under way that a continuation of a region issued which a test accepts (R94, R346). -/
def Core.copiesFor (p : Nat → Bool) (c : Core) : Bool := c.copies.any fun e => e.outstanding && e.owner.any p

/-- The domain has stopped: no core is bound to it, every copy of its continuations is final, and no siding holds one of them
(R346). -/
def State.domainStopped (s : State) (d : FaultDomain) : Bool :=
  s.cores.all fun c =>
    !(c.cont.any fun k => s.within d.root k.region) &&
      !(c.copiesFor (s.within d.root)) &&
      !(c.siding.state != .empty && c.siding.holder.any fun k => s.within d.root k.region)

/-- The UNIT of the entry that the report of a domain may bring into an error log (R347, R378). -/
def State.reportUnit (s : State) (n : Nat) : Nat :=
  match s.domains[n]? with
  | some d => if (s.faultCont maxLevel d.root).isSome then 0 else d.info.region
  | none => 0

/-- The die whose error log the report of a domain may write to: that of the lowest core that was bound, or die 0 for a record that
is dropped (R347, R378; log entry 23). -/
def State.reportDie (s : State) (d : FaultDomain) : Nat :=
  if (s.faultCont maxLevel d.root).isSome then 0
  else match d.bound.min? with | some c => dieOf c | none => 0

/-- The fault domains, by their places in the state, in the order in which the logger takes them (R379). -/
def State.domainOrder (s : State) : List Nat := sortBy s.reportUnit (List.range s.domains.length)

/-- Step 3 of R85 for a stopped domain: the report, or an entry in the error log (R346, R347); it waits for the next station tick
where the logger has taken an event of a higher UNIT in this one (R379). -/
def State.reportDomain (n : Nat) (s : State) : State :=
  match s.domains[n]? with
  | none => s
  | some d =>
    if d.reported || !s.domainStopped d || s.loggedAbove (s.reportDie d) (s.reportUnit n) then s else
    let s := { s with domains := s.domains.set n { d with reported := true } }
    match s.faultCont maxLevel d.root with
    | some (owner, a) => s.reportTo d.info owner (BitVec.ofNat 64 a)
    | none =>
      let die := s.reportDie d
      (s.mapDie die fun d => { d with uncorrected := d.uncorrected + 1 }).logEvent die
        ⟨10, 1, d.info.region, 0xFFFF, d.info.word, 0⟩

/-! ### Selection -/

/-- A core lies on a die that takes part: in maquette service only die 0 does (R383). -/
def State.inService (s : State) (core : Nat) : Bool := s.dev.service != .maquette || dieOf core == 0

/-- Service has begun, so that the root's RCB stands as firmware creates it before the first dispatch (R383, R410). -/
def DeviceState.serves (d : DeviceState) : Bool := d.service == .maquette || d.service == .full

/-- A core that may be selected for: idle, with nothing bound, on a die in service (R80, R341, R383, R410). -/
def State.isIdle (s : State) (core : Nat) : Bool :=
  let c := s.coreOf core
  c.run == .idle && c.cont.isNone && s.inService core && s.dev.serves

/-- The siding of a core holds a saved continuation of region g (R80). -/
def Core.holdsSaved (g : Nat) (c : Core) : Bool :=
  c.siding.state == .held && c.siding.holder.any fun k => k.region = g

/-- Region g may use a core: live, not quiescing, the die in DIEMASK, RUNNING below MAXCORES, the core not owned by
another dedicated region (before R80). -/
def State.mayUse (s : State) (core g : Nat) : Bool :=
  s.accepts g && (s.dieMask g).testBit (dieOf core) && decide (s.running g < s.maxCores g) && !s.ownedAgainst core g

/-- Region g is eligible for an idle core (before R80). -/
def State.eligible (s : State) (core g : Nat) : Bool :=
  s.mayUse core g && (!(s.queue g).isEmpty || (s.coreOf core).holdsSaved g)

/-- The largest of a list of numbers. -/
def maxOf (l : List Nat) : Nat := l.foldl max 0

/-- The regions among which a selection for a core chooses: those short of MINCORES, if any, at the top priority; in
ascending number (R80). The loop of R81, which names the eligible regions of that priority, stays within this group (DEDUCED,
log entry 82). -/
def State.topRegions (s : State) (core : Nat) : List Nat :=
  let all := s.live.filter fun g => s.eligible core g
  let short := all.filter fun g => s.running g < s.minCores g
  let group := if short.isEmpty then all else short
  group.filter fun g => s.prio g = maxOf (group.map s.prio)

/-- The first region of a sorted list at or above a number, wrapping round (R81). -/
def fromPointer (regions : List Nat) (n : Nat) : Nat :=
  (regions.find? fun g => n ≤ g).getD (regions.head?.getD 0)

/-- The loop of R81: the chosen region, and the pointer and the deficits it leaves. -/
def deficitLoop (regions group : List Nat) (weight : Nat → Nat) :
    Nat → Nat → List (Nat × Nat) → Option (Nat × Nat × List (Nat × Nat))
  | 0, _, _ => none
  | fuel + 1, ptr, ds =>
    let g := fromPointer regions ptr
    let next := fromPointer regions (g + 1)
    let d := (lookup g ds).getD 0
    if group.contains g then
      if 256 ≤ d then some (g, next, assign g (d - 256) ds)
      else deficitLoop regions group weight fuel next (assign g (d + weight g) ds)
    else deficitLoop regions group weight fuel next ds

/-- The region a selection chooses for an idle core, with its signal box's pointer and deficits advanced (R80, R81). -/
def State.chooseRegion (core : Nat) (s : State) : Option (Nat × State) :=
  let group := s.topRegions core
  match group.head? with
  | none => none
  | some g0 =>
    let p := s.prio g0
    let regions := s.live.filter fun g => s.prio g = p
    let die := s.die (dieOf core)
    match deficitLoop regions group s.weight (258 * (regions.length + 1)) ((lookup p die.pointers).getD 0) die.deficits with
    | none => none
    | some (g, ptr, ds) =>
      some (g, s.mapDie (dieOf core) fun d => { d with pointers := assign p ptr d.pointers, deficits := ds })

/-- What the dispatch or restore onto a core charges, by its gating at the selection (R355, R368). -/
def bindCharge (gate : GateState) : Nat := match gate with | .gated => 1500 | _ => 1200

/-- A gated core asks its cluster's in-rush arbiter for a wake (R368). -/
def State.requestWake (core : Nat) (s : State) : State :=
  (s.mapCluster (core / 12) fun cl => { cl with wakes := cl.wakes ++ [core] }).updCore core fun c =>
    { c with power := { c.power with gate := .waiting s.tick } }

/-- A binding reaches a core in hold, which cancels its gating, or a gated core, which needs a wake (R368). -/
def State.wakeForBinding (core : Nat) (s : State) : State :=
  match (s.coreOf core).power.gate with
  | .gated => s.requestWake core
  | .hold _ => s.mapDie (dieOf core) fun d =>
      { d with releases := d.releases.filter fun r => !(r.core = core && r.kind = .gating) }
  | _ => s

/-- Binds a continuation to a core in state Binding (R80, R86). -/
def State.bind (core : Nat) (k : Continuation) (s : State) : State :=
  let k' := { k with phase := .binding, charge := bindCharge (s.coreOf core).power.gate }
  ((s.updCore core fun c => { c with cont := some k' }).addRunning k.region 1).wakeForBinding core

/-- The continuation of a record that is selected, with what the device reads then (R74). It belongs to the region of the queue it
waited in, and a REGION that was written meanwhile is only checked as it is bound (DESIGN CHOICE, log entry 93). -/
def State.readRecord (s : State) (g : Nat) (a : Word) : Continuation :=
  let p := s.recordPa g a
  { record := a, region := g, striped := s.recStriped p, phase := .binding, firstDispatch := 0, entered := 0, saves := 0,
    satp := 0, charge := 0, named := s.recRegion p, flags := s.recFlags p, code := BitVec.ofNat 64 (s.recCode p),
    frame := BitVec.ofNat 64 (s.recFrame p), next := BitVec.ofNat 64 (s.recNext p),
    total := BitVec.ofNat 64 (s.recTotal p) }

/-- The selection for an idle core (R80): its saved continuation first, then the queue head of the chosen region. A
plain record is popped; a striped one gains a holder. -/
def State.select (core : Nat) (s : State) : State :=
  if !s.isIdle core then s else
  match s.chooseRegion core with
  | none => s
  | some (g, s) =>
    let c := s.coreOf core
    match (if c.holdsSaved g then c.siding.holder else none) with
    | some k => (s.addSaved g (-1)).bind core k
    | none =>
      let a := (s.queue g).headD 0
      let p := s.recordPa g a
      let striped := s.recStriped p
      let k := s.readRecord g a
      let s := s.reach g a striped
      let s := if striped then s.deviceWrite (p + 56) 4 (s.holders g a + 1) else s.pop g a
      s.bind core k

/-! ### Dispatch -/

/-- The vector state at the first instruction of a dispatched continuation (R75, R105, R338). -/
def VecState.start (base count : Word) (v : VecState) : VecState :=
  { VecState.reset with
    laneMap := v.laneMap
    kvlmax := BitVec.ofNat 17 (vlmaxOf v.laneMap 32 8)
    kstripbase := base
    kstripcnt := count }

/-- The matrix state at dispatch (R75, R231). -/
def MatState.start (map : BitVec 128) (m : MatState) : MatState :=
  { m.off with kmstep := 0, predDepth := 1, predCols := 64, predRows := BitVec.ofNat 8 (kmrowsOf map) }

/-- The integer registers at dispatch (R25). -/
def startRegs (frame base count : Word) (args : List Nat) : Vector Word 32 :=
  (args.zip (List.range 5)).foldl (fun r a => r.setIfInBounds (13 + a.2) (BitVec.ofNat 64 a.1))
    ((((Vector.replicate 32 0#64).set 10 frame).set 11 base).set 12 count)

/-- The core at the first instruction of a dispatched continuation (R25, R75, R286, R309, R315, R352). -/
def Core.start (k : Continuation) (args : List Nat) (satp : Word) (tick : Nat) (c : Core) : Core :=
  let c := c.retireLanes.endInstr
  let base := if k.striped then 0 else k.next
  let count := if k.striped then 0 else k.total
  { c with
    run := .running
    regs := startRegs k.frame base count args
    fregs := Vector.replicate 32 0
    frm := 0
    fflags := 0
    pc := k.code
    priv := .user
    reservation := none
    dcache := []
    csr := { c.csr with
      satp := satp, trapDepth := 0, mstatus := setField c.csr.mstatus 13 2 1 }
    redirect := { c.redirect with mask := 0, active := false }
    vec := VecState.start base count c.vec
    mat := c.mat.start c.vec.laneMap
    mt := ThreadsState.reset
    cont := some { k with phase := .running, firstDispatch := tick, entered := tick, satp := satp }
    siding := if c.siding.state = .shadow then { c.siding with state := .empty, record := 0, holder := none } else c.siding
    copies := c.copies.map CopyEntry.free
    qc := []
    headEngines := []
    krace := { count := 0, acc := false, writer := 0, phase := 0 } }

/-- A failed binding is an unrecoverable fault of the region (R86, R344). -/
def State.bindingFailure (core : Nat) (k : Continuation) (s : State) : State :=
  (s.quiesce k.region ⟨k.region, 254, 0, core, k.record, 0, 0⟩).quiesceCore core

/-- The start of a fresh continuation (R75, R86). -/
def State.startContinuation (core : Nat) (k : Continuation) (s : State) : State :=
  if !s.bindable k then s.bindingFailure core k else
  let at_ (j : Nat) : Word := k.frame + BitVec.ofNat 64 (8 * j)
  let args := (List.range 5).map fun j => s.frameWord k.region (at_ j)
  let reached := (s.reach k.region k.frame false).reach k.region (k.frame + 39) false
  reached.updCore core (Core.start k args (s.regionSatp k.region) s.tick)

/-- The resume of a saved continuation (R343): the core enters supervisor mode at kresvec with the record in a0. -/
def State.resumeEntry (core : Nat) (k : Continuation) (s : State) : State :=
  s.updCore core fun c => let c := c.retireLanes.endInstr
    { c with
      run := .running
      regs := (Vector.replicate 32 0#64).set 10 k.record
      pc := c.csr.kresvec
      priv := .supervisor
      reservation := none
      dcache := []
      csr := { c.csr with trapDepth := 1, mstatus := setBit c.csr.mstatus 1 false }
      cont := some { k with phase := .running, entered := s.tick } }

/-- The governor's state of a core that is dispatched onto or restored (R355, R364). R364 has a dispatch set VOL to 128 and says
nothing of a restore, which does so too (DESIGN CHOICE, log entry 105). -/
def PowerState.bound (charge cap : Nat) (p : PowerState) : PowerState :=
  { p with dispatchCharge := charge, powered := 1, modeCharge := 0, capCharge := 0, quietLoad := 0, qvIdle := 0, vol := 128,
           cap := cap, gate := .active, paid := false, pin := none }

/-- The core is awake, so that a binding on it can be charged (R368). -/
def Core.awake (c : Core) : Bool :=
  match c.power.gate with
  | .waiting _ | .restarting _ | .gated => false
  | _ => true

/-- The charge of a binding on the core in focus (R80, R355, R358): true where it was paid; a pinned region's that is
short charges nothing. -/
def bindingCharge (charge : Nat) : Exec Bool := do
  let s ← get
  if s.corePinned s.core.id then pinnedStep charge
  else
    awaitCharge (.dispatch s.core.id) charge
    return true

/-- The dispatch or restore of a core in Binding once its charge is paid (R80, R86, R341, R343), and once no copy of what ran
there before is still Stopping (R311). What a dispatch leaves of a kept load is released; a restore keeps it until `ctxload` has
powered its lanes and mode (R341, R356, R362). -/
def dispatchFocus : Exec Unit := do
  let s ← get
  let core := s.core.id
  match s.core.cont with
  | some k =>
    if k.phase = .binding && s.core.awake && s.core.run ≠ .halted && !s.core.stopsCopy then
      let paid ← bindingCharge k.charge
      modify fun s =>
        let resumes := s.core.siding.state = .held && s.core.siding.holds k
        let s := if resumes then s else s.releaseKept core
        let s := s.updCore core fun c =>
          { c with rampPending := !paid
                   power := c.power.bound (if paid then k.charge else 0) (s.cluster (core / 12)).cap }
        if resumes then s.resumeEntry core k else s.startContinuation core k
  | none => return

/-- The dispatch of a core (R86). -/
def State.dispatch (core : Nat) (s : State) : State := s.onCore core (State.after dispatchFocus)

/-! ### Pre-emption -/

/-- The regions in whose queues a record of an address waits. Each has its own address space, so that two of them may give one
address to two records (R73, R330; log entry 22). -/
def State.regionsOfQueued (s : State) (a : Word) : List Nat :=
  s.live.filter fun g => (s.queue g).contains a

/-- Some core eligible for region g is idle (R83, R92). -/
def State.idleCoreFor (s : State) (g : Nat) : Bool :=
  (List.range coreCount).any fun c => s.isIdle c && s.mayUse c g

/-- A siding that is free: Empty or Shadow (R340). -/
def Core.sidingFree (c : Core) : Bool := c.siding.state != .held

/-- A core that runs a preemptible continuation of a region above its own MINCORES, with its siding free (R82). -/
def State.aboveMin (s : State) (c : Core) : Bool :=
  c.sidingFree && c.cont.any fun k =>
    k.phase == .running && s.preemptible k.region && decide (s.minCores k.region < s.running k.region)

/-- A core may be had for region g under R82: it is eligible for g, and idle or above its region's minimum. -/
def State.obtainable (s : State) (g core : Nat) : Bool :=
  s.mayUse core g && (s.isIdle core || s.aboveMin (s.coreOf core))

/-- The supposition of R82: region g is short of MINCORES, and with the cores it runs enough for MINCORES are eligible. -/
def State.mayGuarantee (s : State) (g : Nat) : Bool :=
  decide (s.running g < s.minCores g) &&
    decide (s.minCores g ≤ s.running g + ((List.range coreCount).filter (s.obtainable g)).length)

/-- A core is a candidate for pre-emption by region g (R82, R83): for the guarantee one above its region's minimum, else by
priority. -/
def State.candidate (s : State) (g : Nat) (guarantee : Bool) (c : Core) : Bool :=
  match c.cont with
  | none => false
  | some k =>
    k.phase == .running && s.preemptible k.region && c.sidingFree && s.mayUse c.id g &&
      (if guarantee then s.aboveMin c else decide (s.prio k.region + s.margin k.region ≤ s.prio g))

/-- The continuation of a core. -/
def Core.contKey (s : State) (c : Core) : Nat × Nat :=
  match c.cont with | some k => (s.prio k.region, k.entered) | none => (0, 0)

/-- Core a is a better victim than core b: lower priority, then a later entry into Running, then a higher number
(R83). -/
def State.betterVictim (s : State) (a b : Core) : Bool :=
  let x := a.contKey s
  let y := b.contKey s
  x.1 < y.1 || (x.1 == y.1 && (y.2 < x.2 || (x.2 == y.2 && decide (b.id < a.id))))

/-- The victim that the signal box of the lowest-numbered die with a candidate chooses (R83). -/
def State.victimFor (s : State) (g : Nat) : Option Nat :=
  let cands := s.cores.filter (s.candidate g (s.mayGuarantee g))
  match (cands.map fun c => dieOf c.id).min? with
  | none => none
  | some d =>
    match cands.filter fun c => dieOf c.id = d with
    | [] => none
    | c :: cs => some (cs.foldl (fun best k => if s.betterVictim k best then k else best) c).id

/-- The Running continuation of a core passes to Stopping with a stop request (R86, R332), also where its domain quiesces already and
has asked it to stop: the new cause replaces 3 until the next round (DESIGN CHOICE, log entry 92). -/
def Core.beginStop (why : Nat) (c : Core) : Core :=
  { c.requestStop why with cont := c.cont.map fun k => { k with phase := .stopping } }

/-- A record queued in a region asks for the pre-emption of a victim (R83): none is outstanding for it, no core eligible for the
region is idle, and the victim is the one chosen for the region. -/
def State.asksFor (s : State) (a : Word) (victim g : Nat) : Bool :=
  !(s.preemptions.any fun p => p.region = g && p.record = a) && !s.idleCoreFor g && s.victimFor g = some victim

/-- A queued record asks for pre-emption, and its victim is asked to stop (R83, R86, R332). Of two regions whose records of that
address both ask for this victim, the one of the lower number does. -/
def State.preempt (a : Word) (victim : Nat) (s : State) : State :=
  match (s.regionsOfQueued a).find? (s.asksFor a victim) with
  | none => s
  | some g =>
    let s := s.updCore victim (Core.beginStop 1)
    { s with preemptions := ⟨g, a, victim⟩ :: s.preemptions }

end Sys2Proof.Machine
end

