-- ==== Sys2Proof/Machine/Work.lean ====
section
/-! DEFINITION. The work-creation and scheduling instructions (04_work R87 to R95) and the signal boxes' own steps
(R80, R83, R86, R345 to R347). -/

namespace Sys2Proof.Machine

/-- `check_page` of R87: alignment to 64, translation, and no host memory or scratchpad; what it finds. -/
def checkPage (a : Word) (acc : Acc) : Exec Xlated := do
  if a.toNat % 64 ≠ 0 then raise (if acc = .store then 6 else 4) a
  let x ← translate (← get).dataSpace acc .none a
  if !isHbm x.pa then raise (XFault.cause .access acc) a
  return x

/-- Memory as an access through a translation sees it: a discarded page reads as zero (R189). -/
def State.seen (x : Xlated) (s : State) : State := if x.discarded then s.dirtyPage (some s.core.id) x else s

/-- The region of the caller's continuation contains region g, or the caller is privileged (R88, R93, R94). -/
def State.mayName (s : State) (g : Nat) : Bool :=
  s.core.priv ≠ .user || s.region.any fun r => s.within r g

/-- CSPAWN (R88). A record in a poisoned sector is read and written as it stands (DESIGN CHOICE, log entry 70). -/
def execCspawn (rd rs1 : BitVec 5) : State → Host.Outcome State Fault Refusal :=
  retiring do
    let a ← getX rs1
    let _ ← checkPage a .load
    let x ← checkPage a .store
    let p := x.pa
    let s ← get
    let st := (s.seen x).recordStatus p s.mayName
    if st = 0 then
      release 3
      let (s', ok) := ((← get).dirtyPage (some (← get).core.id) x).placeRecord a p
      set s'
      if !ok then raise 51 (BitVec.ofNat 64 (s'.recSucc p))
    putX rd (status st)

/-- CJOIN (R89). JOIN is read as it stands, in a poisoned sector (DESIGN CHOICE, log entry 70) and of a held record too (log entry
93). -/
def execCjoin (rd rs1 : BitVec 5) : State → Host.Outcome State Fault Refusal :=
  retiring do
    let a ← getX rs1
    let x ← checkPage a .store
    let p := x.pa
    release 3
    let s ← get
    let old := (s.seen x).recJoin p
    if old = 0 || (old = 1 && !s.accepts (s.recRegion p)) then raise 51 a
    modify fun s => (s.dirtyPage (some s.core.id) x).deviceWrite (p + 48) 4 (old - 1)
    if old = 1 then
      let (s', ok) := (← get).placeRecord a p
      set s'
      if !ok then raise 51 (BitVec.ofNat 64 (s'.recSucc p))
    putX rd (status (old - 1 : Nat))

/-- Sets the strip CSRs (R76, R90, R160). -/
def State.setStrip (base count : Word) (s : State) : State :=
  s.mapVec fun v => { v with kstripbase := base, kstripcnt := count }

/-- The claim of a strip of a striped record (R26, R77, R90). Where `cjoin` or a successor step placed a record whose NEXT is above
TOTAL, which they do not check, the count is 0, NEXT stays and the record is not popped (DESIGN CHOICE, log entry 102). -/
def claimStrip (k : Continuation) (rd : BitVec 5) : Exec Unit := do
  let s ← get
  require (s.vl ≠ 0)
  let p := s.recordPa k.region k.record
  let base := s.recNext p
  let total := s.recTotal p
  let c := min s.vl (total - base)
  modify fun s => (s.reach k.region k.record true).deviceWrite (p + 40) 8 (base + c)
  if 0 < c && base + c = total then modify (State.pop k.region k.record)
  modify (State.setStrip (BitVec.ofNat 64 base) (BitVec.ofNat 64 c))
  putX rd (BitVec.ofNat 64 c)

/-- STCLAIM (R90). With no continuation bound the count is a free value (log entry 24). -/
def execStclaim (rd : BitVec 5) : State → Host.Outcome State Fault Refusal :=
  retiring do
    let s ← get
    match s.core.cont with
    | some k =>
      if k.striped then claimStrip k rd
      else
        modify (State.setStrip s.core.vec.kstripbase 0)
        putX rd 0
    | none =>
      let (v, s') := s.draw
      set (s'.setStrip s.core.vec.kstripbase (BitVec.ofNat 64 v))
      putX rd (BitVec.ofNat 64 v)

/-- Changes one timetable entry of the core in focus. -/
def State.mapCopy (n : Nat) (f : CopyEntry → CopyEntry) (s : State) : State :=
  s.mapCore fun c => { c with copies := c.copies.setIfInBounds n (f (c.copy n)) }

/-- The effective CPMASK of the continuation on the core in focus: every engine where none is bound (log entry 24). -/
def State.enginesOf (s : State) : Nat := match s.region with | some g => s.cpMask g | none => 2 ^ 96 - 1

/-- Engine e of the die is of no dedicated region that excludes that of the core in focus (R71). -/
def State.engineOpen (s : State) (e : Nat) : Bool :=
  match s.region with
  | none => true
  | some g => s.live.all fun r => !(s.dedicated r && (s.cpMask r).testBit (4 * dieOf s.core.id + e)) || s.within r g

/-- Engine e of the die is permitted: in the effective CPMASK (R308, R323). -/
def State.enginePermitted (s : State) (e : Nat) : Bool := s.enginesOf.testBit (4 * dieOf s.core.id + e)

/-- The permitted engines of the die. -/
def State.permittedEngines (s : State) : List Nat := (List.range 4).filter s.enginePermitted

/-- A copy has got to the head of qc, or none is left: the engines that are permitted now are those that it may go to (R308). -/
def State.noteHead (s : State) : State :=
  s.mapCore fun c => { c with headEngines := if c.qc.isEmpty then [] else s.permittedEngines }

/-- A copy of the core in focus joins qc. -/
def State.enqueueCopy (n : Nat) (s : State) : State :=
  let t := s.mapCore fun c => { c with qc := c.qc ++ [n] }
  if s.core.qc.isEmpty then t.noteHead else t

/-- An entry as it re-enters qc (R316). -/
def CopyEntry.requeue (e : CopyEntry) : CopyEntry := { e with state := .queued, auto := false, accepted := false, begun := false }

/-- A Suspended entry of the core in focus re-enters qc, also where 16 copies are there: only a `cpissue` stalls (R308, R316;
DESIGN CHOICE, log entry 89). -/
def State.resumeCopy (n : Nat) (s : State) : State :=
  if (s.core.copy n).state = .suspended then (s.mapCopy n CopyEntry.requeue).enqueueCopy n else s

/-- The 64 entries of a timetable. -/
def entryNumbers : List Nat := List.range 64

/-- The wait of `cfinish` for its queues and copies, which no interrupt ends (R91), and the delivery of one copy fault (R91,
R316). -/
def drainForFinish : Exec Unit := do
  modify (State.mapCore fun c => { c with begun := .finishing })
  let s ← get
  awaitLoads (s.loadsInFlight = 0)
  modify fun s => entryNumbers.foldl (fun s n => s.resumeCopy n) s
  let s ← get
  waitUntil (s.core.copies.all fun e => e.state = .free || e.state.isFinal)
  match entryNumbers.find? fun n => (s.core.copy n).state = .faulted && !(s.core.copy n).obs with
  | some n =>
    modify (State.mapCopy n fun e => { e with obs := true })
    raise 49 (BitVec.ofNat 64 n)
  | none => modify (State.mapCore fun c => { c with copies := c.copies.map CopyEntry.free })

/-- The finish of the record of a continuation (R77, R78, R91): false on a join underflow. A striped record is Drained once a claim
has popped it, and has no successor step once its domain is quiesced (R86). -/
def State.finishRun (k : Continuation) (s : State) : State × Bool :=
  let p := s.recordPa k.region k.record
  let s := s.reach k.region k.record k.striped
  if !k.striped then s.finishRecord k.region p
  else
    let h := s.holders k.region k.record - 1
    let s := s.deviceWrite (p + 56) 4 h
    if h = 0 && !(s.queue k.region).contains k.record && !s.quiescing k.region then s.finishRecord k.region p else (s, true)

/-- CFINISH (R91). The report of a join underflow holds the address of the record that finishes: R346 says only `the record
address` (DESIGN CHOICE, log entry 84). -/
def execCfinish : State → Host.Outcome State Fault Refusal :=
  retiring do
    if (← get).core.mat.mode ≠ .vector then raise 25 0
    drainForFinish
    modify (State.mapMat MatState.off)
    release 3
    let s ← get
    let core := s.core.id
    match s.core.cont with
    | some k =>
      let (s', ok) := s.finishRun k
      let s' := s'.addRunning k.region (-1)
      let s' := if ok then s' else s'.quiesce k.region ⟨k.region, 51, 0, core, k.record, s.core.pc, 0⟩
      set ((s'.mapCore (Core.dropSiding k)).goIdle core false)
    | none => modify (State.goIdle core false)

/-- Some other work of at least the caller's priority could use the core (R92). -/
def State.workWaits (s : State) (k : Continuation) : Bool :=
  s.core.sidingFree && s.live.any fun g =>
    !(s.queue g).isEmpty && decide (s.prio k.region ≤ s.prio g) && s.mayUse s.core.id g && !s.idleCoreFor g

/-- CYIELD (R92): on success interrupt 16 is asked for, with cause 2, and the continuation is Stopping; one that a pre-emption has
already made Stopping keeps its request (R8, R86). With no continuation bound, of which R92 does not speak, it answers 0
(DESIGN CHOICE, log entry 24). -/
def execCyield (rd : BitVec 5) : State → Host.Outcome State Fault Refusal :=
  retiring do
    let s ← get
    let ok := s.core.cont.any s.workWaits
    if ok && s.core.cont.any fun k => k.phase == .running then
      modify (State.mapCore (Core.beginStop 2))
    putX rd (boolWord ok)

/-! ### Regions -/

/-- A region's template, by its bytes. -/
abbrev Template := Nat → Nat → Nat

/-- The hw fields, the reserved bytes and the reserved bits of a template are zero (R69, R93). Bits [7:4] of MARGIN, of which
R69 does not say that they are reserved, must be zero too, as those of PRIO are (DESIGN CHOICE, log entry 25). -/
def templateClean (t : Template) : Bool :=
  t 0 5 == 0 && t 10 2 == 0 && t 46 2 == 0 && t 56 28 == 0 && t 84 172 == 0 && t 5 1 / 16 == 0 && t 7 1 / 16 == 0 &&
    t 8 2 / 32 == 0 && t 24 4 / 2 ^ 24 == 0 && t 28 2 / 2 ^ 12 == 0 && t 12 4 / 2 ^ 11 == 0

/-- The effective value a child would have: its own where its OVERRIDE bit is set, else the parent's (R70). -/
def childValue (t : Template) (b off n parentValue : Nat) : Nat := if (t 12 4).testBit b then t off n else parentValue

/-- The effective values a new region would have (R70). -/
structure ChildValues where
  prio : Nat
  flags : Nat
  maxCores : Nat
  minCores : Nat
  dieMask : Nat
  l2Ways : Nat
  clusters : Nat
  hbmShare : Nat
  cpMask : Nat
  pwrShare : Nat
deriving DecidableEq, Repr

/-- The effective values of a child of region p. -/
def State.childValues (s : State) (p : Nat) (t : Template) : ChildValues :=
  let flags := childValue t 3 8 2 (s.flags p)
  let dies := childValue t 5 24 4 (s.dieMask p)
  let clusters := childValue t 7 30 1 (s.clusterMask p)
  let owned := 12 * popCount clusters 8 * popCount dies 24
  { prio := childValue t 0 5 1 (s.prio p), flags := flags
    maxCores := if flags.testBit 2 then owned else childValue t 4 20 4 (s.maxCores p)
    minCores := if flags.testBit 2 then owned else t 16 4
    dieMask := dies, l2Ways := childValue t 6 28 2 (s.l2Ways p), clusters := clusters
    hbmShare := childValue t 8 31 1 (s.hbmShare p), cpMask := childValue t 9 32 12 (s.cpMask p)
    pwrShare := childValue t 10 44 2 (s.pwrShare p) }

/-- Every bit of one mask is a bit of another. -/
def subMask (a b : Nat) : Bool := a &&& b == a

/-- A user may not give a child more than the parent's flags allow (R93). -/
def userFlagsOk (child parent : Nat) : Bool :=
  !(child.testBit 0 && !parent.testBit 0) && !(child.testBit 2 && !parent.testBit 2) &&
    !(!child.testBit 1 && parent.testBit 1)

/-- The child's values lie within the parent's (R93); CLUSTERS bounds the child where the parent is itself dedicated
(log entry 25). -/
def State.childWithin (s : State) (p : Nat) (c : ChildValues) : Bool :=
  let siblings := s.live.filter fun k => k ≠ 0 && s.parent k = p
  decide (c.prio ≤ s.prio p) && decide (c.maxCores ≤ s.maxCores p) && decide (c.hbmShare ≤ s.hbmShare p) &&
    decide (c.pwrShare ≤ s.pwrShare p) && subMask c.dieMask (s.dieMask p) && subMask c.l2Ways (s.l2Ways p) &&
    subMask c.cpMask (s.cpMask p) &&
    (!(c.flags.testBit 2 && s.dedicated p) || subMask c.clusters (s.clusterMask p)) &&
    decide (c.minCores + (siblings.map s.minCores).foldl (· + ·) 0 ≤ s.minCores p)

/-- A dedicated child clashes with a live dedicated region that is no ancestor: clusters, engines or ways in common, or
HBM shares above 256 on a die (R71, R93). -/
def State.dedicatedClash (s : State) (p : Nat) (c : ChildValues) : Bool :=
  let others := s.live.filter fun k => s.dedicated k && !s.within k p
  let overlap (k : Nat) : Bool :=
    (c.dieMask &&& s.dieMask k != 0 && (c.clusters &&& s.clusterMask k != 0 || c.l2Ways &&& s.l2Ways k != 0)) ||
      c.cpMask &&& s.cpMask k != 0
  let share (d : Nat) : Nat :=
    c.hbmShare + ((others.filter fun k => (s.dieMask k).testBit d).map s.hbmShare).foldl (· + ·) 0
  c.clusters == 0 || others.any overlap ||
    (List.range 24).any fun d => c.dieMask.testBit d && decide (256 < share d)

/-- The lowest free region number (R93). -/
def State.freeRegion (s : State) : Option Nat :=
  (List.range 4096).find? fun k => k ≠ 0 && !s.isLive k

/-- The status of a request for a child of region p, or the number it gets (R93). -/
def State.regionStatus (s : State) (p : Word) (t : Template) : Int :=
  let k := p.toNat
  let user := s.core.priv = .user
  if 4095 < k || !s.isLive k || (user && !s.mayName k) then -5
  else if s.rcbField k 4 1 = 7 then -2
  else if !templateClean t then -4
  else
    let c := s.childValues k t
    if user && !userFlagsOk c.flags (s.flags k) then -5
    else if !s.childWithin k c then -3
    else if c.flags.testBit 2 && s.dedicatedClash k c then -6
    else match s.freeRegion with
      | none => -1
      | some n => n

/-- Inserts a number into an ascending list. -/
def insertSorted (n : Nat) : List Nat → List Nat
  | [] => [n]
  | m :: l => if n < m then n :: m :: l else m :: insertSorted n l

/-- Writes the RCB of a new region and makes it live (R93). -/
def State.makeRegion (k p : Nat) (t : Template) (s : State) : State :=
  let s := s.deviceWords (s.rcb k) ((List.range 32).map fun i => t (8 * i) 8)
  let s := ((s.putRcb k 0 2 k).putRcb k 2 2 p).putRcb k 4 1 (s.rcbField p 4 1 + 1)
  { s with live := insertSorted k s.live }

/-- RGNMAKE (R93); a template on a host page whose request fails raises cause 5 (R384). One in a poisoned sector is read as it
stands: R376 has only a load, an atomic and a `vglk` fault there (DESIGN CHOICE, log entry 100). -/
def execRgnmake (rd rs1 rs2 : BitVec 5) : State → Host.Outcome State Fault Refusal :=
  retiring do
    let t ← getX rs1
    let p ← getX rs2
    if t.toNat % 256 ≠ 0 then raise 4 t
    let x ← translate (← get).dataSpace .load .none t
    if !x.discarded then
      checkHostPage .load x.pa t
      modify (State.useHostPage x.pa)
    let s ← get
    let tpl : Template := fun off n => if x.discarded then 0 else s.readPA (x.pa + off) n
    let st := s.regionStatus p tpl
    if 0 ≤ st then
      release 3
      modify (State.makeRegion st.toNat p.toNat tpl)
    putX rd (status st)

/-- The subtree of a region is idle: no queued record, no continuation bound or saved, no copy under way (R94). -/
def State.subtreeIdle (s : State) (g : Nat) : Bool :=
  (s.live.all fun k => !s.within g k || (s.queue k).isEmpty) &&
    s.cores.all fun c =>
      !(c.cont.any fun k => s.within g k.region) && !(c.copiesFor (s.within g)) &&
        !(c.siding.state == .held && c.siding.holder.any fun k => s.within g k.region)

/-- The reports of the fault domains that lie in a subtree are made (R85). -/
def State.reportsMade (s : State) (g : Nat) : Bool := s.domains.all fun d => !s.within g d.root || d.reported

/-- The regions of a subtree cease to be live (R94). Their deficits stay, so that a later region of the same number starts from
them: R81 does not say (DESIGN CHOICE, log entry 85). -/
def State.retireRegions (g : Nat) (s : State) : State :=
  { s with live := s.live.filter fun k => !s.within g k, domains := s.domains.filter fun d => !s.within g d.root }

/-- RGNSYNC (R94). A retirement waits for the report of a fault domain of the subtree too, which the next round makes (R85;
DEDUCED, log entry 85). -/
def execRgnsync (rd rs1 rs2 : BitVec 5) : State → Host.Outcome State Fault Refusal :=
  retiring do
    let g ← getX rs1
    let f ← getX rs2
    let s ← get
    let k := g.toNat
    if 4095 < k || k = 0 || !s.isLive k || s.region.any (s.within k) || !s.mayName k || 1 < f.toNat then
      putX rd (status (-5))
    else
      waitUntil (s.subtreeIdle k && (f = 0 || s.reportsMade k))
      acquire
      if f = 1 then modify (State.retireRegions k)
      putX rd 0

/-- The items of `cinfo` (R95). A record may hold a WIDTH above 3, which `cjoin` does not check: item 3 then shows the whole
byte from bit 8 (DESIGN CHOICE, log entry 24). Items 3 and 4 are read from the record at the `cinfo`, and not as they were at its
selection, where a write has broken R74 (DESIGN CHOICE, log entry 93). -/
def State.cinfoItem (s : State) (k : Continuation) (sel : Nat) : Nat :=
  let g := k.region
  let p := s.recordPa g k.record
  match sel with
  | 0 => g
  | 1 => s.prio g
  | 2 => k.record.toNat
  | 3 => s.recFlags p + s.recWidth p * 2 ^ 8
  | 4 => s.recTotal p
  | 5 => k.firstDispatch
  | 6 => s.running g
  | 7 => s.queued g
  | 8 => s.maxCores g
  | 9 => s.minCores g
  | 10 => s.rcbField g 4 1
  | 11 => s.parent g
  | 12 => if k.striped then s.holders g k.record else 0
  | _ => k.saves

/-- CINFO (R95): a selector above 13 raises cause 2; with no continuation bound the item is a free value (log entry
24). -/
def execCinfo (rd : BitVec 5) (sel : BitVec 10) : State → Host.Outcome State Fault Refusal :=
  retiring do
    require (sel.toNat ≤ 13)
    let s ← get
    match s.core.cont with
    | some k => putX rd (BitVec.ofNat 64 (s.cinfoItem k sel.toNat))
    | none =>
      let (v, s') := s.draw
      set s'
      putX rd (BitVec.ofNat 64 v)

/-! ### The signal boxes' steps -/

/-- SELECTION (R80, R343). -/
def execSelection (core : Nat) (s : State) : Host.Outcome State Fault Refusal :=
  .next (if core < coreCount then s.select core else s)

/-- DISPATCH (R75, R86). -/
def execDispatch (core : Nat) (s : State) : Host.Outcome State Fault Refusal :=
  .next (if core < coreCount then s.dispatch core else s)

/-- PREEMPTION_REQUEST (R83). -/
def execPreemptionRequest (record victim : Nat) (s : State) : Host.Outcome State Fault Refusal :=
  .next (s.preempt (BitVec.ofNat 64 record) victim)

/-- The control thread of a core is at an interruptible point (R333): no paid step waits to start (R357), no `lmode` has
begun its switch (R222), no `vcfg` or restore has begun and waits for its charge, and no `cfinish` or save is in its drain
(R91, R348). -/
def State.interruptibleAt (s : State) (core : Nat) : Bool :=
  let c := s.coreOf core
  !c.power.paid && !(s.die (dieOf core)).charges.any (fun q => q.payer = .requeue core) &&
    (match c.mat.phase with | .switching _ => false | _ => true) && c.begun != .finishing && c.begun != .saving

/-- Quiescence stops a core of a failed domain that is in user mode at an interruptible point, or still in Binding; one that has
entered supervisor mode since is asked to stop (R345). A Binding whose charge is paid starts first, and then fails (R86, R355). -/
def State.stopIfQuiescing (core : Nat) (s : State) : State :=
  let c := s.coreOf core
  let binding := c.cont.any fun k => k.phase = .binding
  let starts := binding && c.power.paid
  if starts || !s.mustStop core || c.run = .halted then s
  else if binding || (c.priv = .user && s.interruptibleAt core) then s.quiesceCore core
  else if c.priv ≠ .user && c.stopCause ≠ 3 then s.updCore core (Core.requestStop 3)
  else s

/-- QUIESCE_STOP (R345). -/
def execQuiesceStop (core : Nat) (s : State) : Host.Outcome State Fault Refusal :=
  .next (s.stopIfQuiescing core)

/-- FAULT_REPORT (R346, R347). -/
def execFaultReport (domain : Nat) (s : State) : Host.Outcome State Fault Refusal :=
  .next (s.reportDomain domain)

end Sys2Proof.Machine
end

