-- ==== Sys2Proof/Machine/System.lean ====
section
/-! DEFINITION. The standard system instructions (14_system_traps R353) but `sfence.vma`, the fate of a word that is no instruction
(02_encoding R40), the control thread's identity (03_control_thread R67), and the traps that other
agents bring about (R331 to R333). -/

namespace Sys2Proof.Machine

/-- ECALL (R353): cause 8, 9 or 11 by the mode, stval 0. -/
def execEcall (s : State) : Host.Outcome State Fault Refusal :=
  execute (raise (match s.core.priv with | .user => 8 | .supervisor => 9 | .machine => 11) 0) s

/-- EBREAK (R331, R353): cause 3 with stval its address. -/
def execEbreak (s : State) : Host.Outcome State Fault Refusal := execute (raise 3 s.core.pc) s

/-- A return to user mode lets micro-threads that a save without IDLE froze run on (log entry 71). -/
def Core.thaw (c : Core) : Core := if c.priv = .user then { c with mt := { c.mt with frozen := false } } else c

/-- `sret` to user mode by the continuation that the siding holds makes the image a shadow (R334, R340). -/
def Core.shadowOnReturn (c : Core) : Core :=
  if c.priv = .user ∧ c.siding.state = .held ∧ c.cont.any c.siding.holds then
    { c with siding := { c.siding with state := .shadow } }
  else c

/-- SRET (R334, R353): cause 2 in user mode, and in supervisor mode under TSR; a return to user mode while a
quiescence stop is pending meets the stop instead (R345). -/
def execSret : State → Host.Outcome State Fault Refusal :=
  execute do
    privileged
    let s ← get
    if s.core.priv = .supervisor && bit s.core.csr.mstatus 22 then illegal
    if !bit s.core.csr.mstatus 8 && s.mustStop s.core.id then modify fun s => s.retire.quiesceCore s.core.id
    else modify fun s => (s.retire.returnSupervisor.mapCore Core.shadowOnReturn).mapCore Core.thaw

/-- MRET (R353): machine mode only. -/
def execMret : State → Host.Outcome State Fault Refusal :=
  execute do
    require ((← get).core.priv = .machine)
    modify fun s => s.retire.returnMachine.mapCore Core.thaw

/-- WFI (R353): waits until an interrupt that sie or mie enables is pending; a stop request ends it. -/
def execWfi : State → Host.Outcome State Fault Refusal :=
  retiring do
    privileged
    let s ← get
    if s.core.priv = .supervisor && bit s.core.csr.mstatus 21 then illegal
    waitUntil (s.core.csr.mip &&& s.core.csr.mie ≠ 0 || bit s.core.csr.mip 16)

/-- A cached translation is one that `sfence.vma` or `tlbinv` names (R188, R197): of the page of an address where one
is given; of an address space where one is given, global translations then apart. -/
def TlbEntry.named (page : Option Word) (asid : Option (BitVec 16)) (e : TlbEntry) : Bool :=
  (page.all fun va => e.page == va.toNat / 2 ^ leafBits e.level) &&
    (asid.all fun a => e.asid == a && !bit e.pte 5)

/-- A register operand that x0 leaves out. -/
def State.operand? (s : State) (r : BitVec 5) : Option Word := if r = 0 then none else some (s.x r)

/-- The items of `kident` (R67). -/
def State.identItem (s : State) (sel : Nat) : Nat :=
  let c := s.core.id
  match sel with
  | 0 => c
  | 1 => dieOf c
  | 2 => clusterOf c
  | 3 => c % 12
  | 4 => s.lanes
  | 5 => kmrowsOf s.core.vec.laneMap
  | 6 => 0x10001
  | _ => 7

/-- KIDENT (R67): a selector above 7 raises cause 2. -/
def execKident (rd : BitVec 5) (sel : BitVec 10) : State → Host.Outcome State Fault Refusal :=
  retiring do
    require (sel.toNat ≤ 7)
    putX rd (BitVec.ofNat 64 ((← get).identItem sel.toNat))

/-- NON_INSTRUCTION_WORD (R40): the all-zeros word is the pool guard, cause 48; any other raises cause 2 with stval the
word. -/
def execNonInstructionWord (word : BitVec 32) (s : State) : Host.Outcome State Fault Refusal :=
  execute (if word = 0 then raise 48 0 else raise 2 (word.setWidth 64)) s

/-- The control thread of the core in focus is at an interruptible point (R333). -/
def State.interruptible (s : State) : Bool := s.interruptibleAt s.core.id

/-- The control thread of the core in focus may be stopped where it is: at an interruptible point, with no groups to let pass
first (R333). -/
def State.stopsHere (s : State) : Bool := s.interruptible && s.core.stopAt.getD 0 == 0

/-- A core in user mode whose domain is quiescing stops at an interruptible point in place of a trap entry (R345). -/
def State.endsHere (s : State) : Bool := s.core.priv == .user && s.mustStop s.core.id

/-- Something waits for the next interruptible point of the core in focus: an enabled interrupt (R333), a storage error
(R331) or a quiescence stop (R345). -/
def State.stopDue (s : State) : Bool :=
  s.enabledInterrupt.isSome || !s.core.storageErrors.isEmpty || s.endsHere

/-- The core in focus takes its enabled pending interrupt at once, or what waits stops its next instruction after a number
of groups, steps or chunks (R107, R208, R240, R333); one whose domain is quiescing stops there (R345). -/
def State.interruptAt (groups : Nat) (s : State) : State :=
  if s.core.run ≠ .running || !s.interruptible then s
  else if groups = 0 then
    if s.endsHere then s.quiesceCore s.core.id else
    match s.enabledInterrupt with
    | some n => s.interruptNow n
    | none => s
  else if s.stopDue then s.mapCore fun c => { c with stopAt := some groups }
  else s

/-- INTERRUPT_TRAP (R332, R333). -/
def execInterruptTrap (core groups : Nat) (s : State) : Host.Outcome State Fault Refusal :=
  .next (if core < coreCount then s.onCore core (State.interruptAt groups) else s)

/-- A pending storage error raises cause 52 with its error word as stval (R331, R376); a core whose domain is quiescing stops in
place of it (R345). -/
def State.takeStorageError (s : State) : State :=
  match s.core.run, s.core.storageErrors, s.interruptible with
  | .running, e :: es, true =>
    if s.endsHere then s.quiesceCore s.core.id
    else (s.mapCore fun c => { c with storageErrors := es }).leaveChargeQueue.takeTrap 52 e
  | _, _, _ => s

/-- STORAGE_ERROR_TRAP (R331, R377). -/
def execStorageErrorTrap (core : Nat) (s : State) : Host.Outcome State Fault Refusal :=
  .next (if core < coreCount then s.onCore core State.takeStorageError else s)

end Sys2Proof.Machine
end

