-- ==== Sys2Proof/Machine/MemMgmt.lean ====
section
/-! DEFINITION. The memory-management instructions (08_memory_system R192 to R199), and the events of the memory system
that complete on their own: the revival of a page (R189) and the drain of closed ways (R198). They execute in every lane
mode and are subject to cause 31 (R193). -/

namespace Sys2Proof.Machine

/-- A part of a virtual range that lies in one 64 KiB page: its first address and its length. -/
structure Piece where
  va : Word
  len : Nat
deriving DecidableEq, Repr

/-- The parts of a range page by page, in address order. -/
def pieces : Nat → Word → Nat → List Piece
  | 0, _, _ => []
  | fuel + 1, a, n =>
    if n = 0 then []
    else
      let k := min n (65536 - a.toNat % 65536)
      ⟨a, k⟩ :: pieces fuel (a + BitVec.ofNat 64 k) (n - k)

/-- The parts of a range of n bytes. -/
def piecesOf (a : Word) (n : Nat) : List Piece := pieces (n / 65536 + 2) a n

/-- The lines of n physical bytes. -/
def linesOf (pa n : Nat) : List Nat := (List.range ((pa % 128 + n + 127) / 128)).map (pa / 128 + ·)

/-! ### Hints -/

/-- A cached line takes a class (R179, R194). -/
def State.reclass (pa : Nat) (cls : LineClass) (s : State) : State :=
  let line := canonical pa / 128
  match s.mem.l2.find? fun l => l.line = line with
  | none => s
  | some e =>
    let keeps := (s.mem.l2.filter fun l => l.slice = e.slice && l.set = e.set && l.line ≠ line && l.cls = .keep).length
    let c : LineClass := if cls = LineClass.keep ∧ 4 ≤ keeps then LineClass.normal else cls
    s.mapMem fun m => { m with l2 := m.l2.map fun l => if l.line = line then { l with cls := c } else l }

/-- A page that a range instruction leaves alone: not in HBM, or discarded (R194, R196). -/
def passedOver (pa : Nat) (leaf : Option TlbEntry) : Bool := !isHbm pa || leaf.any fun e => bit e.pte 12

/-- One page of a vprefetch or vresid (R194): a page that may not be read is counted and skipped; host memory,
scratchpad and discarded pages are skipped. R194 lets full queues cut a hint short: here every line is performed (DESIGN CHOICE, log
entry 103). -/
def State.hintPage (fetch : Bool) (cls : LineClass) (p : Piece) (s : State) : State :=
  match s.probe s.vmuSpace .load p.va with
  | (.error _, s) => s.mapCore fun c => { c with khintdrop := c.khintdrop + 1 }
  | (.ok (pa, leaf), s) =>
    if passedOver pa leaf then s
    else (linesOf pa p.len).foldl
      (fun s l => if fetch then s.touch (128 * l) cls false else s.reclass (128 * l) cls) s

/-- A hint over a range, clipped at 2^20 bytes (R194). -/
def rangeHint (fetch : Bool) (mu : BitVec 1) (hint : BitVec 2) (rs1 rs2 : BitVec 5) :
    State → Host.Outcome State Fault Refusal :=
  retiring do
    let s ← get
    require (hintOk mu hint)
    checkLaneChange
    modify fun t => ((piecesOf (s.x rs1) (min (s.x rs2).toNat (2 ^ 20))).foldl
      (fun t p => t.hintPage fetch (hintClass hint) p) t).setVstart 0

/-- vprefetch (R194). -/
def execVprefetch (mu : BitVec 1) (hint : BitVec 2) (rs1 rs2 : BitVec 5) : State → Host.Outcome State Fault Refusal :=
  rangeHint true mu hint rs1 rs2

/-- vresid (R194). -/
def execVresid (mu : BitVec 1) (hint : BitVec 2) (rs1 rs2 : BitVec 5) : State → Host.Outcome State Fault Refusal :=
  rangeHint false mu hint rs1 rs2

/-! ### Ranges in chunks -/

/-- Runs `n` units from `u` up; a trap records its unit's first chunk in kvstart (R193, R195). -/
def forUnits (per : Nat) (body : Nat → Exec Unit) : Nat → Nat → Exec Unit
  | 0, _ => pure ()
  | n + 1, u => do
    atElement (u * per) (body u)
    forUnits per body n (u + 1)

/-- A range instruction in units, each `per` chunks of 4 KiB long: it resumes at kvstart and stops between groups of
units where an interrupt is to be taken (R193). A kvstart that software has written between two units counts as that of the lower
one (R195; DESIGN CHOICE, log entry 32). -/
def rangeUnits (a : Word) (n per group : Nat) (unit : Word → Nat → Exec Unit) : Exec Unit := do
  let s ← get
  let size := 4096 * per
  let total := (n + size - 1) / size
  let lo := s.vstart / per
  let stop := match s.core.stopAt with | none => total | some k => min total (lo + max 1 k * group)
  forUnits per (fun u => unit (a + BitVec.ofNat 64 (size * u)) (min size (n - size * u))) (stop - lo) lo
  if stop < total then
    modify (State.setVstart (stop * per))
    throw .wait
  modify (State.setVstart 0)

/-- A page whose leaf takes Z (R195): its bytes are zero from now on, its lines leave the L2 without being written back,
its tags are cleared, its translations go, and reservations on its lines are lost. The discard is a write of zero by the
issuing core: A and D are set with Z (DEDUCED from R186; log entry 32), and the core's data cache keeps no line of it
(R202). -/
def State.discardPage (e : TlbEntry) (pa : Nat) (s : State) : State :=
  let base := pa / 65536 * 65536
  let inside (line : Nat) : Bool := line * 128 / 65536 == canonical base / 65536
  let s := (s.orLeaf (some s.core.id) e 0x10C0#64).dropLeaf e.pteAddr
  let s := s.mapMem fun m => { m.zeroPage base 16 with
    l2 := m.l2.filter fun l => !inside l.line
    spill := m.spill.filter fun l => !inside l.line
    discards := ⟨base, 16, e.pteAddr⟩ :: m.discards.filter fun d => d.pteAddr ≠ e.pteAddr }
  s.mapCores fun c =>
    if c.id = s.core.id then
      { c with dcache := c.dcache.filter fun l => !inside (canonical (128 * l.line) / 128) }
    else { c with
      reservation := c.reservation.filter fun r => !inside (canonical r.addr / 128)
      vec := { c.vec with reservations := c.vec.reservations.filter fun r => !inside (canonical r.addr / 128) } }

/-- One page of an mdiscard (R195). Where no leaf maps it, there is no Z to set: cause 7 (DESIGN CHOICE, log entry 32). -/
def discardOne (a n : Word) (p : Word) : Exec Unit := do
  let s ← get
  match s.resolve s.vmuSpace .store p with
  | .error x => do
    modify (State.noteMiss s.vmuSpace p)
    raise (x.cause .store) p
  | .ok (_, none) => raise 7 p
  | .ok (pa, some (e, trail)) =>
    let whole := e.level ≠ 1 ||
      (a.toNat ≤ e.page * 2 ^ 29 && (e.page + 1) * 2 ^ 29 ≤ a.toNat + n.toNat)
    if !isHbm pa || !whole then raise 7 p
    modify fun s => (s.noteWalk .vmu e trail).discardPage e pa

/-- mdiscard (R195): whole pages, in batches of 64. -/
def execMdiscard (mu : BitVec 1) (hint : BitVec 2) (rs1 rs2 : BitVec 5) : State → Host.Outcome State Fault Refusal :=
  retiring do
    let s ← get
    let a := s.x rs1
    let n := s.x rs2
    require (hintOk mu hint && decide (n.toNat ≤ 2 ^ 28))
    checkLaneChange
    if n = 0 then modify (State.setVstart 0)
    else
      if a.toNat % 65536 ≠ 0 || n.toNat % 65536 ≠ 0 then raise 6 a
      rangeUnits a n.toNat 16 64 fun p _ => discardOne a n p

/-- The lines of a physical range become clean (R196). -/
def MemState.cleanLines (pa n : Nat) (m : MemState) : MemState :=
  let lo := canonical pa / 128
  let hi := (canonical pa + n + 127) / 128
  { m with l2 := m.l2.map fun l => if lo ≤ l.line && l.line < hi then { l with dirty := false } else l }

/-- One chunk of a cclean (R196). The access that a page must pass to be cleaned is a load: R196 names none, nor
whether it sets A in a leaf, which the model leaves alone (DESIGN CHOICE, log entry 80). -/
def State.cleanChunk (va : Word) (n : Nat) (s : State) : State :=
  (piecesOf va n).foldl (fun s p =>
    match s.probe s.vmuSpace .load p.va with
    | (.ok (pa, leaf), s) => if passedOver pa leaf then s else s.mapMem (MemState.cleanLines pa p.len)
    | (.error _, s) => s) s

/-- Removes the lines of a physical range from the core's data and instruction caches (R196). -/
def Core.dropLines (pa n : Nat) (c : Core) : Core :=
  let out (l : CacheLine) : Bool := !(pa / 128 ≤ l.line && l.line * 128 < pa + n)
  { c with dcache := c.dcache.filter out, icache := c.icache.filter out }

/-- One chunk of a cinval (R196): a page that may be neither read nor fetched is skipped. R196 names no access for the translation
nor whether it sets A in a leaf, which the model leaves alone (DESIGN CHOICE, log entry 80). -/
def State.invalChunk (va : Word) (n : Nat) (s : State) : State :=
  (piecesOf va n).foldl (fun s p =>
    match s.probe s.vmuSpace .load p.va with
    | (.ok (pa, _), s) => s.mapCore (Core.dropLines pa p.len)
    | (.error _, s) =>
      match s.probe s.fetchSpace .fetch p.va with
      | (.ok (pa, _), s) => s.mapCore (Core.dropLines pa p.len)
      | (.error _, s) => s) s

/-- A range instruction that never traps on its addresses (R196): its work on each chunk, and what it does at its end, of
which a length of 0 does nothing (R193). -/
def rangeWork (work : Word → Nat → State → State) (finish : State → State) (mu : BitVec 1) (hint : BitVec 2) (rs1 rs2 : BitVec 5) :
    State → Host.Outcome State Fault Refusal :=
  retiring do
    let s ← get
    require (hintOk mu hint && decide ((s.x rs2).toNat ≤ 2 ^ 28))
    checkLaneChange
    rangeUnits (s.x rs1) (s.x rs2).toNat 1 1 fun va n => modify (work va n)
    if s.x rs2 ≠ 0 then modify finish

/-- cclean (R196). -/
def execCclean (mu : BitVec 1) (hint : BitVec 2) (rs1 rs2 : BitVec 5) : State → Host.Outcome State Fault Refusal :=
  rangeWork State.cleanChunk id mu hint rs1 rs2

/-- cinval (R196): drops the block buffers not in use too (R254). -/
def execCinval (mu : BitVec 1) (hint : BitVec 2) (rs1 rs2 : BitVec 5) : State → Host.Outcome State Fault Refusal :=
  rangeWork State.invalChunk (State.mapCore Core.dropBuffers) mu hint rs1 rs2

/-- tlbinv: removes translations module-wide (R192, R197). A walker's entry, which serves every page below it and is not
tagged with an address space, goes whatever the operands name (log entry 13). -/
def execTlbinv (mu : BitVec 1) (hint : BitVec 2) (rs1 rs2 : BitVec 5) : State → Host.Outcome State Fault Refusal :=
  retiring do
    let s ← get
    require (hintOk mu hint && s.core.priv != .user && (rs2 == 0 || decide ((s.x rs2).toNat < 65536)))
    checkLaneChange
    let asid := (s.operand? rs2).map fun v => v.setWidth 16
    modify fun t =>
      (t.dropTranslations (TlbEntry.named (s.operand? rs1) asid) fun _ => true).setVstart 0

/-! ### Scratchpad -/

/-- l2conv and l2rest are permitted for the ways from 12 − hi to 11 − lo (R199). -/
def State.waysPermitted (s : State) (lo hi : Nat) : Bool :=
  s.core.priv != .user || match s.region with
    | some g => s.dedicated g && (List.range (hi - lo)).all fun i => (s.l2Ways g).testBit (12 - hi + i)
    | none => false

/-- l2conv (R198): the drain runs on its own, and the instruction waits for it, or for the drain of an earlier one before
it checks its own count. -/
def execL2conv (mu : BitVec 1) (hint : BitVec 2) (rd rs1 : BitVec 5) : State → Host.Outcome State Fault Refusal :=
  retiring do
    let s ← get
    require (hintOk mu hint)
    checkLaneChange
    let k := (s.x rs1).toNat
    let cur := s.core.converted
    waitUntil s.core.drain.isNone
    if 8 < k || k < cur then putX rd (status (-2))
    else if !s.waysPermitted cur k then putX rd (status (-1))
    else
      if k ≠ cur then
        modify (State.mapCore fun c => { c with drain := some k })
        throw .wait
      putX rd (BitVec.ofNat 64 k)
    modify (State.setVstart 0)

/-- The scratchpad offsets of a slice from one converted count to another hold zero, with no tags (R190, R198). -/
def MemState.clearScratch (slice lo hi : Nat) (m : MemState) : MemState :=
  let base := 3 * 2 ^ 48 + slice * 2 ^ 20
  let out (pa : Nat) : Bool := !(base + 131072 * lo ≤ pa && pa < base + 131072 * hi)
  { m with bytes := m.bytes.filter fun c => out c.1
           tags := m.tags.filter fun t => out (t.sector * 32)
           poison := m.poison.filter fun p => out (p * 32) }

/-- l2rest (R199): the ways return to the cache and their contents are discarded. -/
def execL2rest (mu : BitVec 1) (hint : BitVec 2) (rd rs1 : BitVec 5) : State → Host.Outcome State Fault Refusal :=
  retiring do
    let s ← get
    require (hintOk mu hint)
    checkLaneChange
    let k := (s.x rs1).toNat
    let cur := s.core.converted
    if cur < k then putX rd (status (-2))
    else if !s.waysPermitted k cur then putX rd (status (-1))
    else
      waitUntil s.core.drain.isNone
      modify fun t => (t.mapMem (MemState.clearScratch t.core.id k cur)).mapCore fun c => { c with converted := k }
      putX rd (BitVec.ofNat 64 k)
    modify (State.setVstart 0)

/-- The drain of a slice's closed ways finishes: its lines leave them as evicted, the ways hold zero, and the converted
count rises (R198). -/
def State.finishDrain (slice : Nat) (s : State) : State :=
  match (s.coreOf slice).drain with
  | none => s
  | some k =>
    let gone := s.mem.l2.filter fun l => l.slice = slice && 12 - k ≤ l.way
    let s := gone.foldl (fun s l => s.evict l.line slice) s
    (s.mapMem (MemState.clearScratch slice (s.coreOf slice).converted k)).updCore slice fun c =>
      { c with converted := k, drain := none }

/-- WAY_DRAIN_COMPLETE (R198). -/
def execWayDrainComplete (die slice : Nat) (s : State) : Host.Outcome State Fault Refusal :=
  .next (if die < 24 ∧ slice < 96 then s.finishDrain (96 * die + slice) else s)

/-- The revival that a core's write at a virtual address asks for, where the page is discarded (R189). -/
def State.reviveVa (va : Word) (s : State) : State :=
  match s.resolve s.vmuSpace .store va with
  | .ok (pa, x) => s.reviveFor (some s.core.id) (x.map (·.1)) pa
  | .error _ => s

/-- PAGE_REVIVAL (R189). -/
def execPageRevival (core : Nat) (va : BitVec 64) (s : State) : Host.Outcome State Fault Refusal :=
  .next (if s.runs core then s.onCore core (State.reviveVa va) else s)

end Sys2Proof.Machine
end

