-- ==== Sys2Proof/Machine/Sync.lean ====
section
/-! DEFINITION. Synchronisation (12_sync_model R276 to R306): vector atomics, gather-linked and scatter-conditional,
fences, barriers and queue drains, and the events that end reservations and scrub tags. -/

namespace Sys2Proof.Machine

/-! ### Vector atomics -/

/-- An operation of a bank ALU (R291, R302, R303). -/
inductive BankOp where
  | add | swap | and | or | xor | min | max | minu | maxu | fadd
deriving DecidableEq, Repr

/-- What the bank writes: exact modulo 2^w; a floating-point addition is FP32, rounded to nearest even, with no flag
(R291). -/
def BankOp.eval (op : BankOp) (w a b : Nat) : Nat :=
  match op with
  | .add => IntOp.eval .add w a b 0
  | .swap => b
  | .and => IntOp.eval .and w a b 0
  | .or => IntOp.eval .or w a b 0
  | .xor => IntOp.eval .xor w a b 0
  | .min => IntOp.eval .min w a b 0
  | .max => IntOp.eval .max w a b 0
  | .minu => IntOp.eval .minu w a b 0
  | .maxu => IntOp.eval .maxu w a b 0
  | .fadd => (fp32.add .rne (fp32.value a) (fp32.value b)).1

/-- How a host page with Y = 1 takes the operation of a vamo (R290). -/
def BankOp.kind : BankOp → AtomicKind
  | .add => .fetchAdd
  | .swap => .swap
  | _ => .other

/-- The op field of vamo (R294). -/
def vamoOp (op : BitVec 3) : BankOp :=
  match op with
  | 0 => .add
  | 1 => .swap
  | 2 => .and
  | 3 => .or
  | 4 => .min
  | 5 => .max
  | _ => .fadd

/-- The op field of vredmem (R294). -/
def vredmemOp (op : BitVec 5) : BankOp :=
  match op with
  | 0 => .add
  | 1 => .fadd
  | 2 => .min
  | 3 => .max
  | 4 => .minu
  | 5 => .maxu
  | 6 => .and
  | 7 => .or
  | _ => .xor

/-- SEW is 32 or 64, and 32 for a floating-point addition (R295). -/
def State.atomicSew (s : State) (op : BankOp) : Bool := s.sew == 32 || (s.sew == 64 && op != .fadd)

/-- One bank operation by an agent of the core in focus (R302, R303): what it notes in the leaf, and what it is to a host
page. -/
def bankAtomic (sp : Space) (mark : PageMark) (kind : AtomicKind) (op : BankOp) (a : Word) (n b : Nat) : Exec Nat := do
  if a.toNat % n ≠ 0 then raise 6 a
  let x ← translate sp .store mark a
  checkHostAtomic kind n x a
  modify (State.mapCore (Core.dropData x.pa))
  atomicAt (← get).core.id x a n fun old => some (op.eval (8 * n) old b)

/-- vamo (R302): one bank operation for each active element, in ascending order. -/
def execVamo (op : BitVec 3) (vd rs1 vs2 : BitVec 5) (vm : BitVec 1) : State → Host.Outcome State Fault Refusal :=
  retiring do
    let s ← get
    let bank := vamoOp op
    require (op != 7 && s.atomicSew bank && maskOk vm vd.toNat && vd != vs2 && s.namesOk [vd.toNat, vs2.toNat])
    checkLaneChange
    checkMode .vector
    checkFull ([vs2.toNat, vd.toNat] ++ maskReads vm) [vd.toNat]
    awaitLoadQueue
    let v := s.core.vec
    let geo := v.geometry
    let w := s.sew
    let lo := s.vstart
    let hi := s.vl
    if lo < hi then
      let stop := s.stopPoint geo lo hi
      forPages ⟨s.vmuSpace, .store, hi, sortedAddr geo v vm (w / 8) (indexedAddr rs1 vs2 s)⟩ (fun i => do
        if v.active geo vm i then
          let old ← bankAtomic s.vmuSpace .gather bank.kind bank (indexedAddr rs1 vs2 s i) (w / 8) (v.elem geo w vd.toNat i)
          modify (State.mapVec fun v => v.putElem geo w vd.toNat i old)) (stop - lo) lo []
      if stop < hi then
        modify (State.setVstart stop)
        throw .wait
      modify fun s => (s.writeTail geo (.elems w vd.toNat 1) hi).markEmpty [vd.toNat]
    modify (State.setVstart 0)

/-- The fold of the active elements of vredmem, and its flags (R303); none where no element is active. -/
def redFold (op : BankOp) (w : Nat) (r : Rounding) (l : List (Option Nat)) : Option (Nat × Flags) :=
  match op, l.filterMap id with
  | _, [] => none
  | .fadd, x :: _ => let (v, fl) := treeRoot fp32 r l.length l; some (v.getD x, fl)
  | op, x :: xs => some (xs.foldl (op.eval w) x, 0)

/-- vredmem (R303): folds the active elements, then one bank operation, which no host page with Y = 1 takes (R290);
non-interruptible. -/
def execVredmem (op vs3 rs1 : BitVec 5) (vm : BitVec 1) : State → Host.Outcome State Fault Refusal :=
  retiring do
    let s ← get
    let bank := vredmemOp op
    require (decide (op.toNat ≤ 8) && s.atomicSew bank && s.namesOk [vs3.toNat])
    checkLaneChange
    checkMode .vector
    checkFull (vs3.toNat :: maskReads vm) []
    let v := s.core.vec
    match redFold bank s.sew s.vectorRounding (v.leaves v.geometry vm s.sew vs3.toNat s.vl) with
    | none => pure ()
    | some (x, fl) =>
      modify (State.raiseVector fl)
      let _ ← bankAtomic s.vmuSpace .none .other bank (s.x rs1) (s.sew / 8) x
    modify (State.setVstart 0)

/-! ### Gather-linked and scatter-conditional -/

/-- The reservation a vglk adds for an element, unless its line would be a 65th distinct one of that vglk (R292). -/
def VecState.reserve (i pa cycle : Nat) (v : VecState) : VecState :=
  let line := pa / 128
  if line ∈ v.linkLines then { v with reservations := v.reservations ++ [⟨i, pa, cycle⟩] }
  else if v.linkLines.length < 64 then
    { v with reservations := v.reservations ++ [⟨i, pa, cycle⟩], linkLines := line :: v.linkLines }
  else v

/-- A line that a vglk tries to reserve, of which it reserves on at most 64 distinct ones (R292). -/
def VecState.noteLine (line : Nat) (v : VecState) : VecState :=
  if line ∈ v.linkLines ∨ 64 ≤ v.linkLines.length then v else { v with linkLines := line :: v.linkLines }

/-- The distinct lines of the active elements below kvstart, which a vglk that resumes has already tried (R292). -/
def State.linkedBelow (rs1 vs2 : BitVec 5) (vm : BitVec 1) (s : State) : State :=
  let v := s.core.vec
  let below := (List.range s.vstart).filter (v.active v.geometry vm)
  below.foldl (fun t i =>
    match t.resolve t.vmuSpace .load (indexedAddr rs1 vs2 s i) with
    | .ok (pa, _) => t.mapVec (VecState.noteLine (pa / 128))
    | .error _ => t) (s.mapVec fun v => { v with linkLines := [] })

/-- vglk (R292, R304): loads at SEW like vlxe, takes a reservation for each element, and is an acquire. One that begins at
kvstart > 0 is taken for a resumption, which keeps the reservations there are: R292 does not say how a resumed one is told from
one whose kvstart software has written (DESIGN CHOICE, log entry 88). -/
def execVglk (vd rs1 vs2 : BitVec 5) (vm : BitVec 1) : State → Host.Outcome State Fault Refusal :=
  retiring do
    let s ← get
    require ((s.sew == 32 || s.sew == 64) && maskOk vm vd.toNat && vd != vs2 && s.namesOk [vd.toNat, vs2.toNat])
    checkLaneChange
    checkMode .vector
    checkFull (vs2.toNat :: maskReads vm) [vd.toNat]
    let v := s.core.vec
    let geo := v.geometry
    let w := s.sew
    let lo := s.vstart
    let hi := s.vl
    if lo < hi then awaitLoadQueue
    if lo = 0 then modify (State.mapVec fun v => { v with reservations := [] })
    modify (State.linkedBelow rs1 vs2 vm)
    if lo < hi then
      let stop := s.stopPoint geo lo hi
      forPages ⟨s.vmuSpace, .load, hi, sortedAddr geo v vm (w / 8) (indexedAddr rs1 vs2 s)⟩ (fun i => do
        if v.active geo vm i then
          let a := indexedAddr rs1 vs2 s i
          if a.toNat % (w / 8) ≠ 0 then raise 4 a
          let x ← translate s.vmuSpace .load .gather a
          checkHostAtomic .reserve (w / 8) x a
          let val ← readAt s.core.id x a (w / 8) .normal
          modify (State.mapVec fun v => (v.putElem geo w vd.toNat i val).reserve i x.pa s.core.clock)) (stop - lo) lo []
      if stop < hi then
        modify (State.setVstart stop)
        throw .wait
      modify fun s => (s.writeTail geo (.elems w vd.toNat 1) hi).markEmpty [vd.toNat]
    acquire
    modify (State.setVstart 0)

/-- The core holds element i's reservation at a physical address, taken less than 4,096 core cycles ago (R292, R305). At exactly
4,096 it is lost, though R293 speaks of at most 4,096 cycles between the two (DESIGN CHOICE, log entry 96). -/
def Core.holdsElement (c : Core) (i pa : Nat) : Bool :=
  c.vec.reservations.any fun r => r.element == i && r.addr == pa && decide (c.clock < r.cycle + 4096)

/-- One attempt of vscc (R305): its physical address, and whether it stored. A store of part of a poisoned sector raises cause 7
(R295, R376; DEDUCED, log entry 95). -/
def scatterOne (sp : Space) (i : Nat) (a : Word) (n val : Nat) (seen : List Nat) : Exec (Nat × Bool) := do
  if a.toNat % n ≠ 0 then raise 6 a
  let x ← translate sp .store .gather a
  checkHostAtomic .other n x a
  let s ← get
  let ok := s.core.holdsElement i x.pa && !seen.contains x.pa
  if ok then
    let _ ← atomicAt s.core.id x a n (fun _ => some val) 7
    modify (State.mapCore fun c => { (c.dropData x.pa) with
      vec := { c.vec with reservations := c.vec.reservations.filter fun r => r.addr ≠ x.pa } })
  else checkUnwritten s.core.id x.pa a
  modify (State.mapVec fun v => { v with reservations := v.reservations.filter fun r => r.element ≠ i })
  return (x.pa, ok)

/-- The attempts of `n` elements from `i` up, with the addresses of the lower active ones and the batch of pages (R187, R305). -/
def scatterFrom (s0 : State) (p : PageSort) (md : Nat) (vs3 rs1 vs2 : BitVec 5) (vm : BitVec 1) :
    Nat → Nat → List Nat → PageBatch → Exec Unit
  | 0, _, _, _ => pure ()
  | n + 1, i, seen, b => do
    let v := s0.core.vec
    let geo := v.geometry
    let w := s0.sew
    if v.active geo vm i then
      let (b, pa, ok) ← atElement i do
        let b ← p.enter i b
        let (pa, ok) ← scatterOne s0.vmuSpace i (indexedAddr rs1 vs2 s0 i) (w / 8) (v.elem geo w vs3.toNat i) seen
        return (b, pa, ok)
      modify (State.mapVec fun v => v.putMask geo md i ok)
      scatterFrom s0 p md vs3 rs1 vs2 vm n (i + 1) (pa :: seen) b
    else scatterFrom s0 p md vs3 rs1 vs2 vm n (i + 1) seen b

/-- vscc (R305): a release, then one attempt for each active element; md tells which stored. -/
def execVscc (md : BitVec 2) (vs3 rs1 vs2 : BitVec 5) (vm : BitVec 1) : State → Host.Outcome State Fault Refusal :=
  retiring do
    let s ← get
    require ((s.sew == 32 || s.sew == 64) && s.namesOk [vs3.toNat, vs2.toNat])
    checkLaneChange
    checkMode .vector
    checkFull ([vs2.toNat, vs3.toNat] ++ maskReads vm) [md.toNat]
    release s.core.vec.cfg.scope.toNat
    let geo := s.core.vec.geometry
    let lo := s.vstart
    let hi := s.vl
    if lo < hi then
      let stop := s.stopPoint geo lo hi
      let p : PageSort := ⟨s.vmuSpace, .store, hi, sortedAddr geo s.core.vec vm (s.sew / 8) (indexedAddr rs1 vs2 s)⟩
      scatterFrom s p md.toNat vs3 rs1 vs2 vm (stop - lo) lo [] []
      if stop < hi then
        modify (State.setVstart stop)
        throw .wait
      modify (State.writeTail geo (.mask md.toNat) hi)
    modify (State.setVstart 0)

/-! ### Fences and barriers -/

/-- kfence (R296). -/
def execKfence (pred succ : BitVec 4) (scope : BitVec 3) : State → Host.Outcome State Fault Refusal :=
  retiring do
    require (scope.toNat ≤ 4)
    checkLaneChange
    fenceOp pred succ scope.toNat

/-- The level, the domain and the identifier that a handle names to a core; none where it is invalid (R297). -/
def State.barrierOf (s : State) (h : Word) : Option (Nat × Nat × Nat) :=
  let level := field h 8 2
  let ident := field h 0 6
  if h.toNat ≥ 1024 || field h 6 2 ≠ 0 || level = 3 || (level = 2 && 15 < ident) then none
  else some (level, match level with | 0 => s.core.id / 12 | 1 => dieOf s.core.id | _ => 0, ident)

/-- The barrier at a place; all zero until it is used (R297). -/
def MemState.barrier (m : MemState) (b : Nat × Nat × Nat) : Barrier :=
  (m.barriers.find? fun x => x.level = b.1 ∧ x.domain = b.2.1 ∧ x.ident = b.2.2).getD
    ⟨b.1, b.2.1, b.2.2, false, 0, 0, 0⟩

/-- Writes a barrier. -/
def MemState.putBarrier (x : Barrier) (m : MemState) : MemState :=
  { m with barriers := x :: m.barriers.filter fun y => ¬(y.level = x.level ∧ y.domain = x.domain ∧ y.ident = x.ident) }

/-- Misuse of a barrier: cause 53 (R297). -/
def barrierMisuse (code : Nat) (h : Word) : Exec α := raise 53 (BitVec.ofNat 64 (65536 * code + field h 0 10))

/-- The barrier a handle names, or misuse code 1 (R297). -/
def barrierAt (h : Word) : Exec Barrier := do
  let s ← get
  match s.barrierOf h with
  | none => barrierMisuse 1 h
  | some b => return s.mem.barrier b

/-- barinit (R298). -/
def execBarinit (rd rs1 rs2 : BitVec 5) : State → Host.Outcome State Fault Refusal :=
  retiring do
    checkLaneChange
    let s ← get
    let h := s.x rs1
    let k := s.x rs2
    let b ← barrierAt h
    if 65535 < k.toNat then barrierMisuse 1 h
    if b.arrived ≠ 0 && s.core.priv = .user then barrierMisuse 3 h
    let gen := if b.arrived ≠ 0 then b.gen + 1 else b.gen
    modify (State.mapMem (MemState.putBarrier
      { b with gen := gen, arrived := 0, count := k.setWidth 16, init := k != 0 }))
    putX rd (gen.setWidth 64)

/-- vfencebar (R299): a release, then one arrival; its checks are made once, before the wait of its release. -/
def execVfencebar (rd rs1 : BitVec 5) : State → Host.Outcome State Fault Refusal :=
  retiring do
    checkLaneChange
    let s ← get
    let h := s.x rs1
    let b ← barrierAt h
    if s.core.begun != .barrier && !b.init then barrierMisuse 2 h
    modify (State.mapCore fun c => { c with begun := .barrier })
    release (b.level + 1)
    let full := b.arrived + 1 == b.count
    modify (State.mapMem (MemState.putBarrier
      { b with arrived := if full then 0 else b.arrived + 1, gen := if full then b.gen + 1 else b.gen }))
    putX rd (b.gen.setWidth 64)

/-- barwait (R300): waits for a generation, then is an acquire; its checks are made once, before it waits. -/
def execBarwait (rd rs1 rs2 : BitVec 5) : State → Host.Outcome State Fault Refusal :=
  retiring do
    checkLaneChange
    let s ← get
    let h := s.x rs1
    let b ← barrierAt h
    if 65535 < (s.x rs2).toNat then barrierMisuse 1 h
    let waiting := s.core.begun == .barrier
    if !waiting && !b.init then barrierMisuse 2 h
    let d := b.gen - (s.x rs2).setWidth 16
    if !waiting && 32768 ≤ d.toNat then barrierMisuse 4 h
    if d = 0 then
      modify (State.mapCore fun c => { c with begun := .barrier })
      throw .wait
    acquire
    putX rd (b.gen.setWidth 64)

/-- qdrain (R301): qv and qm are empty as an instruction ends in this model (log entry 18). -/
def execQdrain (mask : BitVec 4) : State → Host.Outcome State Fault Refusal :=
  retiring do
    checkLaneChange
    let s ← get
    waitUntil (!mask.getLsbD 2 || s.core.qc.isEmpty)
    awaitLoads (!mask.getLsbD 3 ||
      (s.core.vec.inFlight.isEmpty && !s.core.mat.slots.toList.contains .fillingLoad))

/-! ### Events -/

/-- RESERVATION_TIMEOUT: 4,096 core cycles after its LR a reservation is lost (R62). -/
def execReservationTimeout (core : Nat) (s : State) : Host.Outcome State Fault Refusal :=
  .next (if core < coreCount then s.updCore core fun c =>
    { c with reservation := c.reservation.filter fun r => decide (c.clock < r.cycle + 4096) } else s)

/-- VECTOR_RESERVATION_TIMEOUT: an element's reservation is lost 4,096 core cycles after it was taken (R292). -/
def execVectorReservationTimeout (core index : Nat) (s : State) : Host.Outcome State Fault Refusal :=
  .next (if core < coreCount then s.updCore core fun c =>
    { c with vec := { c.vec with reservations := c.vec.reservations.filter fun r =>
        r.element ≠ index ∨ c.clock < r.cycle + 4096 } } else s)

/-- The scrub of a slice: every tag of its lines and of its spill table whose writer has released becomes untagged
(R283); an entry without tags is freed. -/
def State.scrub (slice : Nat) (s : State) : State :=
  s.mapMem fun m =>
    { m with
      tags := m.tags.filter fun t => homeSlice (t.sector * 32) ≠ slice || s.unreleased t
      spill := (m.spill.map fun e =>
        if e.slice = slice then { e with tags := e.tags.filter s.unreleased } else e).filter fun e => !e.tags.isEmpty }

/-- The slices' scrubs visit every entry at least once in so many station ticks (R283). -/
def scrubPeriod : Nat := 1000000

/-- Every slice scrubs. -/
def State.scrubAll (s : State) : State :=
  s.mapMem fun m =>
    { m with
      tags := m.tags.filter s.unreleased
      spill := (m.spill.map fun e => { e with tags := e.tags.filter s.unreleased }).filter fun e => !e.tags.isEmpty }

/-- TAG_SCRUB (R283). -/
def execTagScrub (die slice : Nat) (s : State) : Host.Outcome State Fault Refusal :=
  .next (if die < 24 ∧ slice < 96 then s.scrub (96 * die + slice) else s)

end Sys2Proof.Machine
end

