-- ==== Sys2Proof/Machine/Microthread.lean ====
section
/-! DEFINITION. Micro-threads (11_microthreads R249 to R272, R409): the words of a block, their execution with length
one, the states of a micro-thread, the link queues, and the instructions of KX funct3 0b100 and 0b101. -/

namespace Sys2Proof.Machine

/-! ### Words of a block -/

/-- A word that a micro-thread may execute (R260); registers are m registers. -/
inductive BlockOp where
  | int (op : IntOp) (d a : Nat) (b : Operand)
  | move (d b : Nat)
  | compare (cc : BitVec 3) (d a : Nat) (b : Operand)
  | float (op : FloatOp) (d a b : Nat)
  | floatCompare (cc : BitVec 3) (d a b : Nat)
  | unary (op : FloatUnary) (d a : Nat)
  | convert (src dst : NumFormat) (rf : BitVec 2) (d a : Nat)
  | load (w d base : Nat) (index : Option Nat) (hint : BitVec 2)
  | store (w src base : Nat) (index : Option Nat) (hint : BitVec 2)
  | atomic (op : BankOp) (d base index : Nat)
  /-- ends the block; the test register and whether it must be non-zero -/
  | fetch (block : Nat) (test : Option (Nat × Bool))
  | stop
  | send (below : Bool) (src : Nat)
  | recv (acquires above : Bool) (d : Nat)
  | ident (item : BitVec 2) (d : Nat)
deriving DecidableEq, Repr

/-- The bits of a word from `lo` up, as a number. -/
def part (w : Word32) (lo len : Nat) : Nat := (w.extractLsb' lo len).toNat

/-- The integer operations of KA funct6 0x00 to 0x17, in order (R115). -/
def blockIntOps : List IntOp :=
  [.add, .sub, .minu, .min, .maxu, .max, .and, .or, .xor, .sll, .srl, .sra, .mul, .mulh, .macc, .dot4, .divu, .div,
    .remu, .rem, .saddu, .sadd, .ssubu, .ssub]

/-- The integer funct6 values that have a kind .vi, and those whose immediate is unsigned (R109, R115). -/
def immediateForms : List Nat := [0, 1, 6, 7, 8, 9, 10, 11, 20, 21]

/-- The operations of KA funct6 0x20 to 0x2B, in order (R144). -/
def blockFloatOps : List FloatOp :=
  [.add, .sub, .mul, .div, .min, .max, .macc, .msac, .nmacc, .nmsac, .sgnj, .sgnjn]

/-- The unary operations of funct6 0x2D, by selector (R150). -/
def blockUnaryOps : List FloatUnary := [.sqrt, .classify, .exp2, .rcp, .log2]

/-- An integer word of KA (R260); vdot4 requires SEW 32 (R108). -/
def blockInt (sew f6 kind d a b : Nat) : Option BlockOp :=
  match blockIntOps[f6]? with
  | none => none
  | some op =>
    let op : IntOp := if op = .sub ∧ kind ≠ 0 then .rsub else op
    if op = .dot4 && sew ≠ 32 then none
    else if kind = 0 || kind = 1 then some (.int op d a (.vec b))
    else if kind = 2 && immediateForms.contains f6 then
      some (.int op d a (.all (if 9 ≤ f6 && f6 ≤ 11 then b else wrap sew (signed 5 b))))
    else none

/-- A word of KA with vm = 1 (R260). -/
def blockLane (sew : Nat) (w : Word32) : Option BlockOp :=
  let f6 := part w 26 6
  let kind := part w 12 3
  let a := part w 20 5
  let b := part w 15 5
  let d := part w 7 5
  let cc := w.extractLsb' 9 3
  let md := part w 7 2
  let fp := sew = 16 || sew = 32
  if !w.getLsbD 25 then none
  else if f6 < 0x18 then blockInt sew f6 kind d a b
  else if f6 = 0x18 then
    if kind = 0 || kind = 1 then some (.compare cc md a (.vec b))
    else if kind = 2 then some (.compare cc md a (.all (wrap sew (signed 5 b)))) else none
  else if f6 = 0x1F then if a = 0 && kind ≤ 1 then some (.move d b) else none
  else if 0x20 ≤ f6 && f6 ≤ 0x2B then
    if fp && (kind = 0 || kind = 3) then (blockFloatOps[f6 - 0x20]?).map fun op => .float op d a b else none
  else if f6 = 0x2C then if fp && (kind = 0 || kind = 3) then some (.floatCompare cc md a b) else none
  else if f6 = 0x2D then if fp && kind = 7 then (blockUnaryOps[b]?).map fun op => .unary op d a else none
  else if 0x30 ≤ f6 && f6 ≤ 0x33 then
    if kind ≠ 7 then none
    else match convertFormats sew (BitVec.ofNat 5 b) with
      | some (src, dst) =>
        if d = a && src.width ≠ dst.width then none else some (.convert src dst (w.extractLsb' 26 2) d a)
      | none => none
  else none

/-- The data group of a memory word lies below n, starts at a multiple of its size, and for a load misses the index
register (R213). -/
def groupOk (n sew w d : Nat) (index : Option Nat) : Bool :=
  let k := max 1 (w / sew)
  d % k == 0 && decide (d + k ≤ n) && index.all fun r => decide (r < d ∨ d + k ≤ r)

/-- A word of KM (R260, R213, R295). -/
def blockMemory (n sew : Nat) (w : Word32) : Option BlockOp :=
  let mode := part w 29 3
  let hint := w.extractLsb' 26 2
  let t := part w 20 5
  let s := part w 15 5
  let d := part w 7 5
  let f3 := part w 12 3
  let wid := 8 * 2 ^ f3
  if !w.getLsbD 25 then none
  else if mode = 7 then
    let op := w.extractLsb' 26 3
    let bank := vamoOp op
    if f3 = 0 && op ≠ 7 && d ≠ t && (sew = 32 || (sew = 64 && bank ≠ .fadd)) then some (.atomic bank d s t) else none
  else if 3 < f3 || !hintOk (w.extractLsb' 28 1) hint then none
  else match mode with
    | 0 => if t = 0 && groupOk n sew wid d none then some (.load wid d s none hint) else none
    | 1 => if t = 0 && groupOk n sew wid d none then some (.store wid d s none hint) else none
    | 4 => if groupOk n sew wid d (some t) then some (.load wid d s (some t) hint) else none
    | 5 => if groupOk n sew wid d none then some (.store wid d s (some t) hint) else none
    | _ => none

/-- A word of KX funct3 0b101 (R261). -/
def blockLink (w : Word32) : Option BlockOp :=
  let f5 := part w 27 5
  let fmt := part w 25 2
  let t := part w 20 5
  let s := part w 15 5
  let d := part w 7 5
  match f5 with
  | 0 =>
    if d ≠ 0 then none
    else match fmt with
      | 0 => if t = 0 then some (.fetch s none) else none
      | 1 => some (.fetch s (some (t, true)))
      | 2 => some (.fetch s (some (t, false)))
      | _ => none
  | 1 => if w = 0x0800505B#32 then some .stop else none
  | 2 => if t = 0 && d = 0 then some (.send (w.getLsbD 25) s) else none
  | 3 => if t = 0 && s = 0 then some (.recv (w.getLsbD 26) (w.getLsbD 25) d) else none
  | 4 => if t = 0 && s = 0 then some (.ident (w.extractLsb' 25 2) d) else none
  | _ => none

/-- The word of a block at a register count and an element width; none where it faults with cause 2 (R258, R260). -/
def blockOp (n sew : Nat) (w : Word32) : Option BlockOp :=
  match part w 0 7 with
  | 0x0B => blockLane sew w
  | 0x2B => blockMemory n sew w
  | 0x5B => if part w 12 3 = 5 then blockLink w else none
  | _ => none

/-- The registers a word names; of the data group of a memory word, whose element may be wider than SEW, the first (R250 does not
say that the others count: DESIGN CHOICE, log entry 83). -/
def BlockOp.registers : BlockOp → List Nat
  | .int _ d a b | .compare _ d a b => [d, a] ++ b.reads
  | .float _ d a b | .floatCompare _ d a b => [d, a, b]
  | .move d b => [d, b]
  | .unary _ d a | .convert _ _ _ d a => [d, a]
  | .load _ d base index _ | .store _ d base index _ => [d, base] ++ index.toList
  | .atomic _ d base index => [d, base, index]
  | .fetch block test => block :: (test.map (·.1)).toList
  | .stop => []
  | .send _ src => [src]
  | .recv _ _ d => [d]
  | .ident _ d => [d]

/-- The word with its register check: none names a queue register (R250, R258). -/
def State.blockOp (s : State) (w : Word32) : Option BlockOp :=
  match Machine.blockOp s.nreg s.sew w with
  | some op => if op.registers.all s.matrixReg then some op else none
  | none => none

/-! ### Threads, queues and registers -/

/-- M, the number of micro-threads (R249). -/
def State.threadCount (s : State) : Nat := Machine.threadCount s.core.vec.laneMap s.nreg

/-- A micro-thread that has not run: Stopped with no record. -/
def Thread.stopped : Thread := ⟨.stopped, 0, 0, 0, 0, false, 0, false, none, false, 0, none⟩

/-- Micro-thread t. -/
def ThreadsState.thread (m : ThreadsState) (t : Nat) : Thread := (lookup t m.threads).getD Thread.stopped

/-- Micro-thread t of the core in focus. -/
def State.thread (s : State) (t : Nat) : Thread := s.core.mt.thread t

/-- The threaded-mode state of the core in focus with one change. -/
def State.mapMt (f : ThreadsState → ThreadsState) (s : State) : State := s.mapCore fun c => { c with mt := f c.mt }

/-- Changes micro-thread t. -/
def State.mapThread (t : Nat) (f : Thread → Thread) (s : State) : State :=
  s.mapMt fun m => { m with threads := assign t (f (m.thread t)) m.threads }

/-- A register mk of micro-thread t: element t of vk at width 64 and G = A (R249). -/
def State.m (s : State) (t k : Nat) : Nat := s.core.vec.elem s.groupGeometry 64 k t

/-- Writes a register of micro-thread t. -/
def State.setM (t k v : Nat) (s : State) : State := s.mapVec fun vec => vec.putElem s.groupGeometry 64 k t v

/-- D, the depth of a queue (R250). -/
def State.depth (s : State) : Nat := s.nreg / 8

/-- The first register of a micro-thread's queue: qb for an even number, qa for an odd one (R250). -/
def State.queueReg (s : State) (q : Nat) : Nat := s.tileStore + (q % 2) * s.depth

/-- How many entries a queue holds: queue 2M is the top port and 2M + 1 the bottom port (R251). -/
def State.queueCount (s : State) (q : Nat) : Nat :=
  if q = 2 * s.threadCount then s.core.mt.topPort.length
  else if q = 2 * s.threadCount + 1 then s.core.mt.bottomPort.length
  else (lookup q s.core.mt.counts).getD 0

/-- The escape buffer holds an entry for a queue (R256). -/
def State.escapes (s : State) (q : Nat) : Bool := s.core.mt.escape.any fun e => e.1 == q

/-- A queue is full: at its depth, or with an escape entry waiting for it (R256, R265). -/
def State.queueFull (s : State) (q : Nat) : Bool := decide (s.depth ≤ s.queueCount q) || s.escapes q

/-- Sets a queue's count; a queue without entries is not listed. -/
def ThreadsState.setCount (q n : Nat) (m : ThreadsState) : ThreadsState :=
  { m with counts := if n = 0 then unassign q m.counts else assign q n m.counts }

/-- Appends an entry to a queue (R250): a send writes the register at position count. -/
def State.push (q v : Nat) (s : State) : State :=
  let n := s.queueCount q
  if q = 2 * s.threadCount then s.mapMt fun m => { m with topPort := m.topPort ++ [BitVec.ofNat 64 v] }
  else if q = 2 * s.threadCount + 1 then s.mapMt fun m => { m with bottomPort := m.bottomPort ++ [BitVec.ofNat 64 v] }
  else (s.setM (q / 2) (s.queueReg q + n) v).mapMt (ThreadsState.setCount q (n + 1))

/-- The escape entry enters its queue where that has room (R256). -/
def State.admitEscape (s : State) : State :=
  match s.core.mt.escape with
  | some (q, v) =>
    if s.queueCount q < s.depth then (s.push q v.toNat).mapMt fun m => { m with escape := none } else s
  | none => s

/-- Moves the entries of a queue above its head down by one position (R250). -/
def State.shiftQueue (q n : Nat) (s : State) : State :=
  (List.range (n - 1)).foldl (fun t j => t.setM (q / 2) (s.queueReg q + j) (s.m (q / 2) (s.queueReg q + j + 1))) s

/-- Takes the head of a queue that holds entries; a waiting escape entry enters in the same cycle (R250, R265). -/
def State.takeQueue (q : Nat) (s : State) : Nat × State :=
  let n := s.queueCount q
  if q = 2 * s.threadCount then
    ((s.core.mt.topPort.headD 0).toNat, (s.mapMt fun m => { m with topPort := m.topPort.tail }).admitEscape)
  else if q = 2 * s.threadCount + 1 then
    ((s.core.mt.bottomPort.headD 0).toNat, (s.mapMt fun m => { m with bottomPort := m.bottomPort.tail }).admitEscape)
  else (s.m (q / 2) (s.queueReg q), ((s.shiftQueue q n).mapMt (ThreadsState.setCount q (n - 1))).admitEscape)

/-- The queue a send of micro-thread t goes to (R251): upward to qb of t + 1 or the top port, downward to qa of t − 1 or
the bottom port. -/
def State.sendQueue (s : State) (t : Nat) (below : Bool) : Nat :=
  let m := s.threadCount
  if below then (if t = 0 then 2 * m + 1 else 2 * (t - 1) + 1) else (if t + 1 = m then 2 * m else 2 * (t + 1))

/-- The queue a receive of micro-thread t takes from: its qb from below, its qa from above (R251). -/
def recvQueue (t : Nat) (above : Bool) : Nat := if above then 2 * t + 1 else 2 * t

/-! ### Execution of a word -/

/-- What a word comes to (R253, R257). -/
inductive WordEnd where
  | next
  | stop
  | jump (descriptor : Word)
  | blocked (inSend : Bool)
deriving DecidableEq, Repr

/-- The address of a memory word (R260). -/
def State.blockAddr (s : State) (t base : Nat) (index : Option Nat) : Word :=
  BitVec.ofNat 64 (s.m t base + match index with | some r => s.m t r % 2 ^ s.sew | none => 0)

/-- The page mark of a memory word (R186, R260). -/
def blockMark (index : Option Nat) (hint : BitVec 2) : PageMark := if index.isSome then .gather else unitMark hint

/-- Writes a register and raises flags. The bits above the result's width are zero; R260 says so of bits [63:SEW], and of a
conversion to a width below SEW it leaves bits [SEW − 1:w] open (DESIGN CHOICE, log entry 83). -/
def finishM (t d : Nat) (r : Nat × Flags) : Exec WordEnd := do
  modify fun s => (s.setM t d r.1).raiseVector r.2
  return .next

/-- A source at SEW: the low SEW bits of a register (R260). -/
def State.source (s : State) (t k : Nat) : Nat := s.m t k % 2 ^ s.sew

/-- The second operand of an integer word. -/
def State.secondSource (s : State) (t : Nat) (b : Operand) : Nat :=
  match b with
  | .vec r => s.source t r
  | .all v => v

/-- The item that mtid gives micro-thread t (R272). -/
def State.threadIdent (s : State) (t : Nat) (item : BitVec 2) : Nat :=
  match item with
  | 0 => t
  | 1 => s.threadCount
  | 2 => t % s.lanes
  | _ => t / s.lanes

/-- A receive of micro-thread t from a queue that holds entries (R271); an acquire among them empties the data cache (R56,
R277). -/
def State.receive (t q d : Nat) (acquires : Bool) (s : State) : State :=
  let (v, s') := s.takeQueue q
  let s' := s'.setM t d v
  if acquires then s'.invalidateData else s'

/-- Executes a word of micro-thread t with length one (R260, R269 to R272, R302). `mtfetch` tests m[s2], and takes its descriptor from
m[s1], as all 64 bits at every SEW: R269 names no width, and R260 reads a source from its low SEW bits; a store of a width above SEW
stores the bits of that width of its m register, though R260 names those of a load alone (DESIGN CHOICE, log entry 101). -/
def runOp (t : Nat) (op : BlockOp) : Exec WordEnd := do
  let s ← get
  let w := s.sew
  let fmt := floatFormat w
  let r := s.vectorRounding
  match op with
  | .int op d a b => finishM t d (op.eval w (s.source t a) (s.secondSource t b) (s.source t d), 0)
  | .move d b => finishM t d (s.source t b, 0)
  | .compare cc d a b =>
    finishM t d (if intCompare cc w (s.source t a) (s.secondSource t b) then 1 else 0, 0)
  | .float op d a b => finishM t d (op.eval fmt r (s.source t a) (s.source t b) (s.source t d))
  | .floatCompare cc d a b =>
    let (x, fl) := fmt.compare cc.toNat (s.source t a) (s.source t b)
    finishM t d (if x then 1 else 0, fl)
  | .unary op d a => finishM t d (op.eval fmt r (s.source t a))
  | .convert src dst rf d a =>
    let v := s.core.vec
    finishM t d (convert src dst (convertRounding rf v.cfg.frm v.seed (v.kstripbase + BitVec.ofNat 64 t))
      (s.m t a % 2 ^ src.width))
  | .load w d base index hint =>
    let v ← vmuLoad s.threadSpace (blockMark index hint) (hintClass hint) (s.blockAddr t base index) (w / 8)
    finishM t d (v, 0)
  | .store w src base index hint =>
    vmuStore s.threadSpace (blockMark index hint) (hintClass hint) (s.blockAddr t base index) (w / 8)
      (s.m t src % 2 ^ w)
    return .next
  | .atomic bank d base index =>
    let old ← bankAtomic s.threadSpace .gather bank.kind bank (s.blockAddr t base (some index)) (w / 8) (s.source t d)
    finishM t d (old, 0)
  | .fetch block test =>
    if test.all fun x => (s.m t x.1 ≠ 0) == x.2 then
      let d : Word := BitVec.ofNat 64 (s.m t block)
      if d.toNat % 4 ≠ 0 then raise 0 d
      return .jump d
    else return .next
  | .stop => return .stop
  | .send below src =>
    let q := s.sendQueue t below
    if s.queueFull q then return .blocked true
    modify (State.push q (s.m t src))
    return .next
  | .recv acquires above d =>
    let q := recvQueue t above
    if s.queueCount q = 0 then return .blocked false
    set (s.receive t q d acquires)
    return .next
  | .ident item d => finishM t d (s.threadIdent t item, 0)

/-- Executes a word (R258): the all-zeros word is cause 48, and a word not allowed in a block cause 2. -/
def runWord (t : Nat) (w : Word32) : Exec WordEnd := do
  if w = 0 then raise 48 0
  match (← get).blockOp w with
  | none => raise 2 (w.setWidth 64)
  | some op => runOp t op

/-! ### States of a micro-thread -/

/-- Micro-thread t starts at a block (R252, R257). -/
def State.startThread (t : Nat) (descriptor : Word) (s : State) : State :=
  s.mapThread t fun _ =>
    { Thread.stopped with
      state := .fetching, pc := BitVec.ofNat 64 (descriptor.toNat / 128 * 128), last := descriptor, asked := s.core.clock }

/-- Micro-thread t stops; its program counter stays (R257). -/
def Thread.stop (t : Thread) : Thread := { Thread.stopped with pc := t.pc }

/-- A word has completed without ending the block: the next word, or Stopped after the last (R253, R257). -/
def Thread.advance (t : Thread) : Thread :=
  if t.pc = t.last then t.stop else { t with state := .ready, pc := t.pc + 4, moved := false, inSend := false, age := 0 }

/-- A fault's record (R258). -/
def Thread.fault (cause : Nat) (value : Word) (fetching : Bool) (t : Thread) : Thread :=
  { t with state := .faulted, cause := BitVec.ofNat 8 cause, value := value, fetchFault := fetching, inSend := false,
           moved := false, line := if fetching then none else t.line, batch := none }

/-- The block address of a program counter. -/
def Thread.block (t : Thread) : Word := BitVec.ofNat 64 (t.pc.toNat / 128 * 128)

/-- A micro-thread needs its block fetched: it is Fetching, or a restore brought it back without a buffer (R257). -/
def Thread.needsBlock (t : Thread) : Bool :=
  t.line.isNone && (t.state == .fetching || t.state == .ready || t.state == .blocked)

/-- The micro-threads whose block comes with one fetch: those that one `mtbcast` started and that still need it; else t alone
(R263). -/
def ThreadsState.fetchGroup (m : ThreadsState) (t : Nat) : List Nat :=
  match (m.thread t).batch with
  | none => [t]
  | some n => (m.threads.filter fun u => u.2.batch == some n && u.2.needsBlock).map (·.1)

/-- A change of every micro-thread whose block comes with micro-thread t's fetch (R263). -/
def State.mapGroup (t : Nat) (f : Thread → Thread) (s : State) : State :=
  (s.core.mt.fetchGroup t).foldl (fun s u => s.mapThread u f) s

/-- The block of a micro-thread stands in the buffer of a line; one that was Fetching is Ready (R257). -/
def Thread.blockIn (line : Nat) (t : Thread) : Thread :=
  { t with line := some line, state := if t.state = .fetching then .ready else t.state, batch := none }

/-- A block buffer is in use (R254). -/
def ThreadsState.inUse (m : ThreadsState) (b : BlockBuffer) : Bool := m.threads.any fun t => t.2.line == some b.line

/-- The block buffers that may be filled: those without a block, and those not in use (R254). -/
def ThreadsState.freeBuffers (m : ThreadsState) : Nat := 16 - (m.buffers.filter m.inUse).length

/-- The buffers once a line is placed, its buffer the most recent; none where no buffer is free (R254). -/
def ThreadsState.placeBuffer (b : BlockBuffer) (m : ThreadsState) : Option (List BlockBuffer) :=
  if m.buffers.length < 16 then some (m.buffers ++ [b])
  else (m.buffers.find? fun x => !m.inUse x).map fun old => m.buffers.erase old ++ [b]

/-- The buffer of a line becomes the most recent (R254). -/
def ThreadsState.recent (line : Option Nat) (m : ThreadsState) : ThreadsState :=
  match m.buffers.find? fun b => some b.line = line with
  | some b => { m with buffers := m.buffers.erase b ++ [b] }
  | none => m

/-- Micro-thread t uses its block's buffer, as a word of it issues or ends and as it leaves the block (R254). -/
def State.useBuffer (t : Nat) (s : State) : State := s.mapMt (ThreadsState.recent (s.thread t).line)

/-- The fetch of a block into a buffer, for every micro-thread that one `mtbcast` started on it (R254, R263, R409): true where it has
one. -/
def fetchBlock (t : Nat) : Exec Bool := do
  let s ← get
  let x ← translate s.threadSpace .fetch .none (s.thread t).pc
  let line := x.pa / 128
  let m := (← get).core.mt
  let place (bs : List BlockBuffer) : State → State := fun s =>
    (s.mapMt fun m => { m with buffers := bs }).mapGroup t (Thread.blockIn line)
  match m.buffers.find? fun b => b.line = line with
  | some b =>
    modify (place (m.buffers.erase b ++ [b]))
    return true
  | none =>
    if 0 < m.freeBuffers then
      let data ← instrLine x (s.thread t).pc
      match m.placeBuffer ⟨line, data⟩ with
      | some bs =>
        modify (place bs)
        return true
      | none => return false
    else return false

/-- How many fetches of the core have an older request than micro-thread t's, one for the micro-threads of one `mtbcast`; of equal
ones that of the lowest micro-thread is first (R254, R263). -/
def State.olderFetches (s : State) (t : Nat) : Nat :=
  let m := s.core.mt
  let first (u : Nat) : Nat := (m.fetchGroup u).foldl min u
  (m.threads.filter fun u =>
    u.2.needsBlock && first u.1 == u.1 &&
      (decide (u.2.asked < (m.thread t).asked) || (u.2.asked == (m.thread t).asked && decide (u.1 < first t)))).length

/-- Some buffer holds the block that a fetch asks for (R254). -/
def State.blockPresent (s : State) (t : Nat) : Bool :=
  match s.resolve s.threadSpace .fetch (s.thread t).pc with
  | .ok (pa, _) => s.core.mt.buffers.any fun b => b.line = pa / 128
  | .error _ => false

/-- A block fetch completes, faults with one record for all who wait for it, or waits for a buffer (R254, R258, R263); buffers go to
the oldest requests first, and while a save has frozen the micro-threads nothing is fetched (R257). A restored micro-thread that is
Ready or Blocked becomes Faulted where the refetch of its block faults, of which R257 speaks for Fetching alone (DESIGN CHOICE, log
entry 45). -/
def State.fetchThread (t : Nat) (s : State) : State :=
  let h := s.thread t
  if !h.needsBlock || s.core.mt.frozen || (decide (s.core.mt.freeBuffers ≤ s.olderFetches t) && !s.blockPresent t) then s
  else match fetchBlock t s with
    | .ok _ s' => s'
    | .error (.trap c _) s' => s'.mapGroup t fun g => g.fault c g.block true
    | .error .wait s' => s'

/-- The word at a micro-thread's program counter, from its buffer. -/
def State.threadWord (s : State) (t : Nat) : Option Word32 :=
  let h := s.thread t
  match h.line with
  | none => none
  | some l =>
    (s.core.mt.buffers.find? fun b => b.line = l).map fun b =>
      BitVec.ofNat 32 (b.data.read (canonical (128 * l) + h.pc.toNat % 128) 4)

/-- The end of a word of micro-thread t (R257). -/
def State.endWord (t : Nat) (e : WordEnd) (s : State) : State :=
  match e with
  | .next => s.mapThread t Thread.advance
  | .stop => s.mapThread t Thread.stop
  | .jump d => s.startThread t d
  | .blocked b => s.mapThread t fun h => { h with state := .blocked, inSend := b, age := 0, moved := false }

/-- Runs a word of a micro-thread, which counts its conflicts apart from the instruction of the control thread (R285). -/
def countingApart (m : Exec α) : Exec α := fun s =>
  let put (l : List Nat) (s : State) : State := s.mapCore fun c => { c with raceSectors := l }
  match m (put [] s) with
  | .ok a t => .ok a (put s.core.raceSectors t)
  | .error e t => .error e (put s.core.raceSectors t)

/-- The word of an Executing micro-thread completes (R257): a fault leaves its record, and a transfer already made only
advances. -/
def State.completeThread (t : Nat) (s : State) : State :=
  let h := s.thread t
  if h.state ≠ .executing then s
  else
  let s := s.useBuffer t
  if h.moved then s.mapThread t Thread.advance
  else match s.threadWord t with
    | none => s
    | some w =>
      match countingApart (runWord t w) s with
      | .ok e s' => s'.endWord t e
      | .error (.trap c v) s' => s'.mapThread t (Thread.fault c v false)
      | .error .wait s' => s'

/-- A micro-thread may begin its word: no save has frozen it, it is Ready, in its buffer, and every register the word names is full (R257,
R260). -/
def State.canIssue (s : State) (t : Nat) : Bool :=
  !s.core.mt.frozen && (s.thread t).state == .ready &&
    match s.threadWord t with
    | none => false
    | some w => match s.blockOp w with
      | some op => op.registers.all s.isFull
      | none => true

/-- A lane position issues: round-robin by slot, from the slot after the one it issued from last (R255); a lane that has issued none
since the switch or a restore starts at slot 0 (DESIGN CHOICE, log entry 83). -/
def State.issueLane (p : Nat) (s : State) : State :=
  let a := s.lanes
  let slots := 256 / s.nreg
  let last := (lookup p s.core.mt.lastIssued).getD (slots - 1)
  let order := (List.range slots).map fun i => (last + 1 + i) % slots
  match (order.map fun k => k * a + p).find? s.canIssue with
  | some t =>
    ((s.useBuffer t).mapThread t fun h => { h with state := .executing, moved := false }).mapMt fun m =>
      { m with lastIssued := assign p (t / a) m.lastIssued }
  | none => s

/-- The queue that a Blocked micro-thread waits for, and the register of its transfer. -/
def State.blockedOn (s : State) (t : Nat) : Option (Bool × Nat × Nat) :=
  match (s.threadWord t).bind s.blockOp with
  | some (.send below src) => some (true, s.sendQueue t below, src)
  | some (.recv _ above d) => some (false, recvQueue t above, d)
  | _ => none

/-- The receive that a Blocked micro-thread waits in is an acquire (R271). -/
def State.blockedAcquires (s : State) (t : Nat) : Bool :=
  match (s.threadWord t).bind s.blockOp with
  | some (.recv acquires _ _) => acquires
  | _ => false

/-- A Blocked micro-thread performs its transfer once its queue has room or an entry (R257), unless a save has frozen it. -/
def State.unblockThread (t : Nat) (s : State) : State :=
  if (s.thread t).state ≠ .blocked || s.core.mt.frozen then s else
  let done : Thread → Thread := fun h => { h with state := .executing, moved := true, inSend := false, age := 0 }
  match s.blockedOn t with
  | some (true, q, src) => if s.queueFull q then s else (s.push q (s.m t src)).mapThread t done
  | some (false, q, d) =>
    if s.queueCount q = 0 then s else (s.receive t q d (s.blockedAcquires t)).mapThread t done
  | none => s

/-- The send that the token moves (R256): at the token's lane, Blocked for at least 64 core cycles on a queue that is
still full, the longest Blocked, then the lowest slot. -/
def State.escapee (s : State) : Option Nat :=
  let ready (t : Nat × Thread) : Bool :=
    t.2.state == .blocked && t.2.inSend && decide (64 ≤ t.2.age) && t.1 % s.lanes == s.core.mt.token &&
      (match s.blockedOn t.1 with | some (true, q, _) => s.queueFull q | _ => false)
  let ts := s.core.mt.threads.filter ready
  let oldest := ts.foldl (fun a t => max a t.2.age) 0
  ((ts.filter fun t => t.2.age = oldest).map (·.1)).min?

/-- The token moves a blocked send into the escape buffer, and the send completes (R256). -/
def State.escapeMove (s : State) : State :=
  if s.core.mt.escape.isSome || s.core.mt.frozen then s else
  match s.escapee with
  | some t =>
    match s.blockedOn t with
    | some (true, q, src) =>
      ((s.useBuffer t).mapMt fun m => { m with escape := some (q, BitVec.ofNat 64 (s.m t src)) }).mapThread t Thread.advance
    | _ => s
  | none => s

/-- One core cycle of a core in threaded mode: blocked ages grow and the token moves on (R256). -/
def ThreadsState.cycle (a : Nat) (m : ThreadsState) : ThreadsState :=
  { m with
    token := (m.token + 1) % max 1 a
    threads := m.threads.map fun t => if t.2.state = .blocked then (t.1, { t.2 with age := t.2.age + 1 }) else t }

/-- Every word that the micro-threads of the core in focus are executing completes (R257). -/
def State.completeExecuting (s : State) : State :=
  ((s.core.mt.threads.filter fun t => t.2.state == .executing).map (·.1)).foldl (fun s t => s.completeThread t) s

/-! ### Settled micro-threads -/

/-- Micro-thread t is settled, given those already found settled (before R264). -/
def State.settledGiven (s : State) (found : List Nat) (t : Nat) : Bool :=
  let h := s.thread t
  let other (u : Nat) : Bool :=
    (s.thread u).state == .stopped || (s.thread u).state == .faulted || found.contains u
  match h.state with
  | .stopped | .faulted => true
  | .blocked =>
    match s.blockedOn t with
    | some (false, q, _) =>
      s.queueCount q == 0 && !s.escapes q &&
        (if q % 2 = 0 then t == 0 || other (t - 1) else t + 1 == s.threadCount || other (t + 1))
    | some (true, q, _) =>
      s.queueFull q && s.core.mt.escape.isSome && (decide (2 * s.threadCount ≤ q) || other (q / 2))
    | none => false
  | _ => false

/-- The least set of settled micro-threads among those listed. -/
def State.settledSet (s : State) : Nat → List Nat → List Nat
  | 0, found => found
  | fuel + 1, found =>
    s.settledSet fuel ((s.core.mt.threads.map (·.1)).filter (s.settledGiven found))

/-- Every micro-thread is settled. -/
def State.allSettled (s : State) : Bool :=
  let found := s.settledSet s.core.mt.threads.length []
  s.core.mt.threads.all fun t => found.contains t.1

/-! ### Instructions of the control thread -/

/-- The checks of a control-thread instruction of KX funct3 0b100 (R262). -/
def beginThreads (ok : Bool) : Exec Unit := do
  require ok
  checkLaneChange
  checkMode .threaded

/-- Micro-threads are started on a block, which comes with one fetch for all of them (R263). -/
def State.broadcast (ts : List Nat) (d : Word) (s : State) : State :=
  let n := s.core.mt.batches
  ts.foldl (fun s t => (s.startThread t d).mapThread t fun h => { h with batch := some n })
    (s.mapMt fun m => { m with batches := n + 1 })

/-- mtbcast (R263). -/
def execMtbcast (rd rs1 rs2 : BitVec 5) : State → Host.Outcome State Fault Refusal :=
  retiring do
    beginThreads true
    let s ← get
    let d := s.x rs1
    if d.toNat % 4 ≠ 0 then raise 0 d
    let ts := (List.range (min (s.x rs2).toNat s.threadCount)).filter fun t => (s.thread t).state == .stopped
    modify (State.broadcast ts d)
    putX rd (BitVec.ofNat 64 ts.length)

/-- mtwait (R264). -/
def execMtwait (rd rs1 : BitVec 5) : State → Host.Outcome State Fault Refusal :=
  retiring do
    beginThreads true
    let s ← get
    let dl := s.x rs1
    if s.allSettled then
      acquire
      let f := (s.core.mt.threads.filter fun t => t.2.state == .faulted).length
      if f ≠ 0 then raise 29 (BitVec.ofNat 64 f)
      putX rd (if s.core.mt.threads.all fun t => t.2.state == .stopped then 0 else 1)
    else
      waitUntil (dl ≠ 0 && decide (dl.toNat ≤ s.tick))
      putX rd 2

/-- mtqrd (R265). -/
def execMtqrd (rd rs1 : BitVec 5) : State → Host.Outcome State Fault Refusal :=
  retiring do
    let s ← get
    let q := (s.x rs1).toNat
    beginThreads (decide (q ≤ 2 * s.threadCount + 1))
    waitUntil (s.queueCount q ≠ 0)
    let (v, s') := (← get).takeQueue q
    set s'
    acquire
    putX rd (BitVec.ofNat 64 v)

/-- mtqwr (R265). -/
def execMtqwr (rs1 rs2 : BitVec 5) : State → Host.Outcome State Fault Refusal :=
  retiring do
    let s ← get
    let q := (s.x rs1).toNat
    beginThreads (decide (q < 2 * s.threadCount))
    waitUntil (!s.queueFull q)
    modify (State.push q (s.x rs2).toNat)

/-- The micro-threads an identifier names: one, or every listed one for all ones; none where it is illegal (R262). -/
def State.named (s : State) (v : Word) : Option (List Nat) :=
  if v = BitVec.allOnes 64 then some (s.core.mt.threads.map (·.1)).eraseDups
  else if v.toNat < s.threadCount then some [v.toNat] else none

/-- A Faulted micro-thread continues (R257, R266). -/
def Thread.resume (now : Nat) (skip : Bool) (t : Thread) : Thread :=
  let t' := { Thread.stopped with state := .fetching, pc := t.pc, last := t.last, asked := now }
  if skip && !t.fetchFault then (if t.pc = t.last then t.stop else { t' with pc := t.pc + 4 }) else t'

/-- mtresume and mtresume.skip (R266). -/
def resumeThreads (skip : Bool) (rd rs1 : BitVec 5) : State → Host.Outcome State Fault Refusal :=
  retiring do
    let s ← get
    beginThreads (s.named (s.x rs1)).isSome
    let ts := ((s.named (s.x rs1)).getD []).filter fun t => (s.thread t).state == .faulted
    modify fun s => ts.foldl (fun s t => (s.useBuffer t).mapThread t (Thread.resume s.core.clock skip)) s
    putX rd (BitVec.ofNat 64 ts.length)

/-- mtresume (R266). -/
def execMtresume (rd rs1 : BitVec 5) : State → Host.Outcome State Fault Refusal := resumeThreads false rd rs1

/-- mtresume.skip (R266). -/
def execMtresumeSkip (rd rs1 : BitVec 5) : State → Host.Outcome State Fault Refusal := resumeThreads true rd rs1

/-- mtkill stops one micro-thread: an Executing word completes first (R257, R267). -/
def State.killThread (t : Nat) (s : State) : State := ((s.completeThread t).useBuffer t).mapThread t Thread.stop

/-- mtkill (R267). -/
def execMtkill (rd rs1 : BitVec 5) : State → Host.Outcome State Fault Refusal :=
  retiring do
    let s ← get
    beginThreads (s.named (s.x rs1)).isSome
    let ts := ((s.named (s.x rs1)).getD []).filter fun t => (s.thread t).state != .stopped
    modify fun s => ts.foldl (fun s t => s.killThread t) s
    putX rd (BitVec.ofNat 64 ts.length)

/-- The number of a state (R268). -/
def ThreadState.code : ThreadState → Nat
  | .stopped => 0
  | .fetching => 1
  | .ready => 2
  | .executing => 3
  | .blocked => 4
  | .faulted => 5

/-- An item of mtfault (R268). -/
def State.threadItem (s : State) (t : Nat) (item : BitVec 2) : Word :=
  let h := s.thread t
  match item with
  | 0 => BitVec.ofNat 64 (h.state.code + h.cause.toNat * 2 ^ 8 + (if h.inSend then 2 ^ 16 else 0))
  | 1 => h.value
  | 2 => if h.fetchFault then h.block else h.pc
  | _ => match ((s.core.mt.threads.filter fun u => u.2.state == .faulted && decide (t ≤ u.1)).map (·.1)).min? with
    | some u => BitVec.ofNat 64 u
    | none => BitVec.allOnes 64

/-- mtfault (R262, R268): outside threaded mode, the values of a Stopped micro-thread with no record. -/
def execMtfault (item : BitVec 2) (rd rs1 : BitVec 5) : State → Host.Outcome State Fault Refusal :=
  retiring do
    let s ← get
    let t := (s.x rs1).toNat
    require (t < s.threadCount || (item == 3 && t == s.threadCount))
    checkLaneChange
    let s' := if s.core.mat.mode = .threaded then s else s.mapMt fun _ => ThreadsState.reset
    putX rd (s'.threadItem t item)

/-! ### Block words met by the control thread -/

/-- The control thread's words of KX funct3 0b101 raise cause 2 with the word as stval (R260). -/
def blockWordOnly : State → Host.Outcome State Fault Refusal := execute illegal

/-- mtfetch (R260, R269). -/
def execMtfetch (_ms1 : BitVec 5) : State → Host.Outcome State Fault Refusal := blockWordOnly

/-- mtfetch.nz (R260, R269). -/
def execMtfetchNz (_ms1 _ms2 : BitVec 5) : State → Host.Outcome State Fault Refusal := blockWordOnly

/-- mtfetch.z (R260, R269). -/
def execMtfetchZ (_ms1 _ms2 : BitVec 5) : State → Host.Outcome State Fault Refusal := blockWordOnly

/-- mtstop (R260, R270). -/
def execMtstop : State → Host.Outcome State Fault Refusal := blockWordOnly

/-- mtsend (R260, R271). -/
def execMtsend (_rel _dir : BitVec 1) (_ms1 : BitVec 5) : State → Host.Outcome State Fault Refusal := blockWordOnly

/-- mtrecv (R260, R271). -/
def execMtrecv (_acq _dir : BitVec 1) (_md : BitVec 5) : State → Host.Outcome State Fault Refusal := blockWordOnly

/-- mtid (R260, R272). -/
def execMtid (_item : BitVec 2) (_md : BitVec 5) : State → Host.Outcome State Fault Refusal := blockWordOnly

/-! ### Events -/

/-- Runs a change of a core in threaded mode that no fatal error has halted (R380). -/
def threadEvent (core : Nat) (f : State → State) (s : State) : Host.Outcome State Fault Refusal :=
  .next (if s.runs core then s.onCore core fun s => if s.core.mat.mode = .threaded then f s else s else s)

/-- BLOCK_FETCH (R254, R257). -/
def execBlockFetch (core thread : Nat) (s : State) : Host.Outcome State Fault Refusal :=
  threadEvent core (State.fetchThread thread) s

/-- MT_ISSUE (R255, R257). -/
def execMtIssue (core lane : Nat) (s : State) : Host.Outcome State Fault Refusal :=
  threadEvent core (fun s => if lane < s.lanes then s.issueLane lane else s) s

/-- MT_WORD_COMPLETE (R257). -/
def execMtWordComplete (core thread : Nat) (s : State) : Host.Outcome State Fault Refusal :=
  threadEvent core (State.completeThread thread) s

/-- MT_UNBLOCK (R257). -/
def execMtUnblock (core thread : Nat) (s : State) : Host.Outcome State Fault Refusal :=
  threadEvent core (State.unblockThread thread) s

/-- ESCAPE_MOVE (R256). -/
def execEscapeMove (core : Nat) (s : State) : Host.Outcome State Fault Refusal := threadEvent core State.escapeMove s

/-- One round of every micro-thread of the core in focus: block fetches, transfers, completions and issues. -/
def State.threadRound (s : State) : State :=
  if s.core.mat.mode ≠ .threaded || s.core.mt.frozen ||
      (s.core.mt.threads.all fun t => t.2.state == .stopped || t.2.state == .faulted) then s
  else
    let ids := (sortBy (fun t => t.2.asked) s.core.mt.threads).map (·.1)
    let s := ids.foldl (fun s t => s.fetchThread t) s
    let s := ids.foldl (fun s t => s.unblockThread t) s
    let s := ids.foldl (fun s t => s.completeThread t) s
    (ids.map (· % s.lanes)).eraseDups.foldl (fun s p => s.issueLane p) s

end Sys2Proof.Machine
end

