-- ==== Sys2Proof/Machine/Copy.lean ====
section
/-! DEFINITION. Asynchronous copies (13_async_copy R308 to R327): the shape of a copy, its chunks and faults, the engines
and their promises, the states of a timetable entry, and the instructions of KS funct3 0b010. -/

namespace Sys2Proof.Machine

/-! ### The shape of a copy -/

/-- LEN (R309). -/
def CopyEntry.len (e : CopyEntry) : Nat := field e.shape 40 24
/-- ROWS (R309). -/
def CopyEntry.rows (e : CopyEntry) : Nat := field e.shape 28 12
/-- SPITCH in bytes (R309). -/
def CopyEntry.srcPitch (e : CopyEntry) : Nat := 256 * field e.shape 18 10
/-- DPITCH in bytes (R309). -/
def CopyEntry.dstPitch (e : CopyEntry) : Nat := 256 * field e.shape 8 10
/-- PORT (R309). -/
def CopyEntry.port (e : CopyEntry) : Nat := field e.shape 0 5
/-- B, the bytes of the copy (R310). -/
def CopyEntry.total (e : CopyEntry) : Nat := e.len * e.rows

/-- Where byte k of copy order is read (R310). -/
def CopyEntry.srcAt (e : CopyEntry) (k : Nat) : Word := e.src + BitVec.ofNat 64 (k / e.len * e.srcPitch + k % e.len)

/-- Where byte k of copy order is written (R310). -/
def CopyEntry.dstAt (e : CopyEntry) (k : Nat) : Word := e.dst + BitVec.ofNat 64 (k / e.len * e.dstPitch + k % e.len)

/-- How many bytes from byte k on lie in one row, in one sector of the destination, and below a limit: what a copy writes at once,
so that a write of a whole sector clears its poison. R318 and R376 give a copy's writes no unit (DESIGN CHOICE, log entry 89). -/
def CopyEntry.runLength (e : CopyEntry) (k limit : Nat) : Nat :=
  min (min (e.len - k % e.len) (limit - k)) (32 - (e.dstAt k).toNat % 32)

/-- How many bytes from byte k on lie in one sector of the source. -/
def CopyEntry.toSector (e : CopyEntry) (k : Nat) : Nat := 32 - (e.srcAt k).toNat % 32

/-- The address space captured at the issue, with the cache of the engine that performs the copy (R188, R310). -/
def CopyEntry.space (core : Nat) (e : CopyEntry) : Space := ⟨e.satp, e.priv, e.sum, e.mxr, .engine (4 * dieOf core + e.engine)⟩

/-- A peer offset that no module has (R176, R320). -/
def peerRefuses (a : Word) : Bool := decide (3 * 2 ^ 40 ≤ a.toNat)

/-- A peer form is refused: its port is out of service, or the peer has no such offset (R320, R386). -/
def State.peerDown (s : State) (e : CopyEntry) (a : Word) : Bool :=
  peerRefuses a || !(s.dev.ports[e.port]?.any (·.inService))

/-- What a peer module sends: bytes that this module does not hold, so free values (log entry 15). -/
def peerBytes (n : Nat) : Exec Nat := do
  let s ← get
  set { s with free := s.free + 4 }
  return (List.range 4).foldl (fun v i => v + (Config.freeWord (s.free + i)).toNat * 2 ^ (64 * i)) 0 % 2 ^ (8 * n)

/-- Reads `n` bytes from byte k of a copy on that lie in one sector of the source: a checked plain read by the copy's agent, or
what the peer sends (R311, R318, R320). -/
def readPiece (entry : Nat) (e : CopyEntry) (k n : Nat) : Exec Nat := do
  let a := e.srcAt k
  match e.kind with
  | .get => do if (← get).peerDown e a then raise 5 a else peerBytes n
  | _ => do
    let core := (← get).core.id
    let x ← translate (e.space core) .load .none a
    readAt (copyAgent core entry) x a n .normal

/-- Reads at most 32 bytes from byte k of a copy on, in one or two sectors of the source. -/
def readRun (entry : Nat) (e : CopyEntry) (k n : Nat) : Exec Nat := do
  let m := e.toSector k
  if n ≤ m then readPiece entry e k n
  else do
    let low ← readPiece entry e k m
    let high ← readPiece entry e (k + m) (n - m)
    return low + high * 2 ^ (8 * m)

/-- Moves `n` bytes from byte k of a copy on: a checked plain read and a checked plain write by the copy's agent (R311,
R318, R320). The read comes first: of a byte whose read and write both fail, the fault of the read is recorded, which the spec
leaves open (DESIGN CHOICE, log entry 89). -/
def moveRun (entry : Nat) (e : CopyEntry) (k n : Nat) : Exec Unit := do
  let core := (← get).core.id
  let b := e.dstAt k
  let v ← readRun entry e k n
  match e.kind with
  | .put => do if (← get).peerDown e b then raise 7 b
  | _ =>
    let y ← translate (e.space core) .store .none b
    writeAt (copyAgent core entry) y b n v .normal

/-- What the accesses to a faulting byte leave behind, with nothing written: their walks (R179, R318). -/
def touchByte (entry : Nat) (e : CopyEntry) (k : Nat) : Exec Unit := do
  let core := (← get).core.id
  let _ ← readRun entry e k 1
  match e.kind with
  | .put => return
  | _ => let _ ← translate (e.space core) .store .none (e.dstAt k)

/-! ### Chunks -/

/-- A fault of a copy: the byte, the cause and the address (R318). -/
structure CopyFault where
  byte : Nat
  cause : Nat
  addr : Word
deriving DecidableEq, Repr

/-- Moves a run from byte k on, or where that faults as much of it as lies in one sector of the source; what it moved, or the
fault at byte k (R318). -/
def moveSome (entry : Nat) (e : CopyEntry) (k n : Nat) (s : State) : Except Stop Nat × State :=
  match moveRun entry e k n s with
  | .ok _ t => (.ok n, t)
  | .error _ _ =>
    let m := min n (e.toSector k)
    match moveRun entry e k m s with
    | .ok _ t => (.ok m, t)
    | .error x t => (.error x, t)

/-- Moves the bytes from k up to a limit, up to the first fault. -/
def runBytes (entry : Nat) (e : CopyEntry) (limit : Nat) : Nat → Nat → State → State × Option CopyFault
  | 0, _, s => (s, none)
  | fuel + 1, k, s =>
    if limit ≤ k then (s, none)
    else
      match moveSome entry e k (e.runLength k limit) s with
      | (.ok n, s') => runBytes entry e limit fuel (k + n) s'
      | (.error (.trap c a), s') => (s', some ⟨k, c, a⟩)
      | (.error .wait, s') => (s', none)

/-- The bytes of a faulting chunk below the fault: each may or may not have been written (R318; a free value decides). -/
def chooseBytes (entry : Nat) (e : CopyEntry) : Nat → Nat → State → State
  | 0, _, s => s
  | n + 1, k, s =>
    let (v, s) := s.draw
    chooseBytes entry e n (k + 1) (if v % 2 = 1 then s.after (moveRun entry e k 1) else s)

/-- What a copy that fails at byte k leaves in memory and in the caches (R179, R318). -/
def State.breakOff (entry k : Nat) (s : State) : State :=
  let e := s.core.copy entry
  (chooseBytes entry e (k - e.done) e.done s).after (touchByte entry e k)

/-- Interrupt 17 becomes pending where sie enables it, and a sleeping core wakes (R314, R318, R326). -/
def Core.copyEvent (c : Core) : Core := { c.pendIfEnabled 17 with sleep := c.sleep.map fun _ => true }

/-- A copy faults (R318). -/
def State.faultCopy (entry cause : Nat) (addr : Word) (s : State) : State :=
  (s.mapCopy entry fun e =>
    { e.finish .faulted s.tick with fcause := BitVec.ofNat 8 cause, faddr := addr }).mapCore Core.copyEvent

/-- A copy that moves: Running, or stopping after it has begun (R316). -/
def CopyEntry.moving (e : CopyEntry) : Bool := e.state == .running || (e.state == .stopping && e.begun)

/-- The junction port of a copy went down: it fails with the cause of its kind once its generation may advance (R311, R318,
R386). -/
def State.failLost (entry : Nat) (s : State) : State :=
  let e := s.core.copy entry
  if !e.spaced s.tick then s
  else if e.kind = .put then s.faultCopy entry 7 (e.dstAt e.done) else s.faultCopy entry 5 (e.srcAt e.done)

/-- One chunk of a copy of the core in focus (R312, R316, R318). A final state waits for the spacing of R311. -/
def State.copyChunk (entry : Nat) (s : State) : State :=
  let e := s.core.copy entry
  if e.lost then s.failLost entry
  else if !e.moving then s else
  let limit := min (e.done / 4096 * 4096 + 4096) e.total
  match runBytes entry e limit 4096 e.done s with
  | (s', none) =>
    if limit < e.total then s'.mapCopy entry fun e => { e with done := limit }
    else if e.spaced s.tick then s'.mapCopy entry fun e => { e.finish .done s.tick with done := limit }
    else s
  | (_, some f) =>
    if e.spaced s.tick then (s.breakOff entry f.byte).faultCopy entry f.cause f.addr
    else s

/-- Some chunks of a copy. -/
def State.copyChunks (entry : Nat) : Nat → State → State
  | 0, s => s
  | n + 1, s => (s.copyChunk entry).copyChunks entry n

/-- The chunks that a copy still has before it. -/
def CopyEntry.chunksLeft (e : CopyEntry) : Nat := (e.total - e.done + 4095) / 4096

/-! ### Stopping -/

/-- Requests a stop of one entry of the core in focus; one that is Queued leaves qc (R308, R316). -/
def State.stopCopy (cancel save : Bool) (entry : Nat) (s : State) : State :=
  let left := (s.core.copy entry).state = .queued
  let s := s.mapCopy entry (CopyEntry.requestStop cancel save)
  if left then
    let t := s.mapCore fun c => { c with qc := c.qc.erase entry }
    if s.core.qc.head? = some entry then t.noteHead else t
  else s

/-- A stopping copy is at its chunk boundary (R316); where its port was lost, the fault is taken (R317). -/
def State.finishStop (entry : Nat) (s : State) : State :=
  let e := s.core.copy entry
  if e.state = .stopping && e.lost then s.failLost entry else s.mapCopy entry (CopyEntry.endStop s.tick)

/-! ### Engines -/

/-- A copy is accepted and neither final nor suspended: its promise is in force (R308, R314). -/
def CopyEntry.inEngine (e : CopyEntry) : Bool :=
  e.accepted && (e.state == .queued || e.state == .running || e.state == .stopping)

/-- A copy takes a place of its engine: it was not taken out of the engine's queue (R308, R316). -/
def CopyEntry.occupies (e : CopyEntry) : Bool := e.state == .queued || e.moving

/-- The promise that an engine gave a copy it accepted is still in force. -/
def State.engineHolds (s : State) (e : Nat) (i : EngineItem) : Bool :=
  let k := (s.coreOf i.core).copy i.entry
  k.inEngine && k.engine == e && k.promise == i.promise

/-- The copies an engine of a die accepted last. -/
def State.engineItems (s : State) (die e : Nat) : List EngineItem := (s.die die).engines[e]?.getD []

/-- An engine's horizon: the promise of the last copy it accepted, while that is not final (R308). -/
def State.horizon (s : State) (die e : Nat) : Nat :=
  match (s.engineItems die e).getLast? with
  | some i => if s.engineHolds e i then i.promise else 0
  | none => 0

/-- The engines that the copy at the head of qc may go to: those that were permitted as it got there, or where none was those that
are now; without what belongs to a dedicated region that is not its own (R71, R308). -/
def State.headChoices (s : State) : List Nat :=
  (if s.core.headEngines.isEmpty then s.permittedEngines else s.core.headEngines).filter s.engineOpen

/-- The engine with the earliest horizon, the lowest of equals, among those the copy at the head of qc may go to (R308). -/
def State.chooseEngine (s : State) : Option Nat :=
  let d := dieOf s.core.id
  match s.headChoices with
  | [] => none
  | e :: es => some (es.foldl (fun a b => if s.horizon d b < s.horizon d a then b else a) e)

/-- The class of the page of an address: host memory or device memory (R313). -/
def State.copyHost (s : State) (e : CopyEntry) (acc : Acc) (a : Word) : Bool :=
  match s.resolve (e.space s.core.id) acc a with
  | .ok (pa, _) => isHost pa
  | .error _ => false

/-- What the translation of an address at acceptance leaves behind: the lines of its walk are touched, and the engine keeps the
translation (R179, R310, R313). -/
def State.translateFirst (e : CopyEntry) (acc : Acc) (a : Word) (s : State) : State :=
  let sp := e.space s.core.id
  match s.probe sp acc a with
  | (.ok (_, some leaf), t) =>
    t.setTranslations sp.via (leaf :: (t.translations sp.via).filter fun x => x.pteAddr ≠ leaf.pteAddr)
  | (_, t) => t

/-- The first bytes of a copy's source and destination are translated, but for the side of a peer (R313). -/
def State.translateEnds (e : CopyEntry) (s : State) : State :=
  let s := if e.kind = .get then s else s.translateFirst e .load e.src
  if e.kind = .put then s else s.translateFirst e .store e.dst

/-- Rate and latency of a class (R313). -/
def classTerms (peer host : Bool) : Nat × Nat :=
  if peer then (150, 8000) else if host then (50, 6000) else (800, 2000)

/-- The promise of a copy accepted now by an engine whose horizon is h (R313). -/
def State.promiseOf (s : State) (e : CopyEntry) (h : Nat) : Nat :=
  let a := classTerms (e.kind == .get) (s.copyHost e .load e.src)
  let b := classTerms (e.kind == .put) (s.copyHost e .store e.dst)
  let rate := min a.1 b.1
  max s.tick h + max a.2 b.2 + (e.total - e.done + rate - 1) / rate + 4 * e.rows

/-- A copy is accepted by an engine with a promise (R313, R316). -/
def CopyEntry.accept (engine promise : Nat) (e : CopyEntry) : CopyEntry :=
  { e with accepted := true, begun := false, missed := false, engine := engine, promise := promise, nprom := min (2 ^ 28 - 1) (e.nprom + 1) }

/-- The copy at the head of qc is accepted, and the next one gets there (R308, R313, R316). -/
def State.acceptCopy (s : State) : State :=
  let d := dieOf s.core.id
  match s.core.qc, s.chooseEngine with
  | n :: rest, some e =>
    let held := (s.engineItems d e).filter (s.engineHolds e)
    if 128 ≤ (held.filter fun i => ((s.coreOf i.core).copy i.entry).occupies).length then s
    else
      let k := { s.core.copy n with engine := e }
      let p := s.promiseOf k (s.horizon d e)
      let s := ((s.translateEnds k).mapCopy n (CopyEntry.accept e p)).mapCore fun c => { c with qc := rest }
      s.noteHead.mapDie d fun die => { die with engines := die.engines.setIfInBounds e (held ++ [⟨s.core.id, n, p⟩]) }
  | _, _ => s

/-- The engine begins an accepted copy (R316). -/
def State.beginCopy (entry : Nat) (s : State) : State :=
  let e := s.core.copy entry
  if e.state = .queued ∧ e.accepted then s.mapCopy entry fun e => { e with state := .running, begun := true } else s

/-- A copy misses its promise where it is not final as station tick P + 1 ends, so that one that reaches a final state in that
tick has not missed it; each promise is missed once (R314, R317). -/
def CopyEntry.misses (now : Nat) (e : CopyEntry) : Bool :=
  e.inEngine && e.promise != 0 && decide (e.promise + 1 < now) && !e.missed

/-- LATE is set in the entries that a test names, interrupt 17 becomes pending where sie enables it, and a sleeping core wakes
(R314, R326). -/
def Core.missPromises (p : Nat → CopyEntry → Bool) (c : Core) : Core :=
  let mark (n : Nat) : CopyEntry := if p n (c.copy n) then { c.copy n with late := true, missed := true } else c.copy n
  if entryNumbers.any fun n => p n (c.copy n) then Core.copyEvent { c with copies := (Vector.range 64).map mark } else c

/-! ### Instructions -/

/-- The entries an operand names: one, or every one for all ones where that is accepted (R322). -/
def entryOperand (all : Bool) (v : Word) : Option (List Nat) :=
  if v.toNat < 64 then some [v.toNat]
  else if all && v == BitVec.allOnes 64 then some entryNumbers
  else none

/-- cpissue and its peer forms (R323). -/
def issueCopy (kind : CopyKind) (rd rs1 rs2 : BitVec 5) : State → Host.Outcome State Fault Refusal :=
  retiring do
    let s ← get
    let c := s.core
    let e : CopyEntry := { CopyEntry.empty 0 with
      state := .queued, pc := c.pc, lt := bit c.vec.kcpshape 7, kind := kind, shape := c.vec.kcpshape,
      src := s.x rs2, dst := s.x rs1, satp := c.csr.satp, priv := c.priv, sum := bit c.csr.mstatus 18,
      mxr := bit c.csr.mstatus 19, owner := s.region }
    let peer := kind != .local
    require (e.len != 0 && e.rows != 0 && !(peer && decide (17 < e.port)))
    match entryNumbers.find? fun n => (c.copy n).state = .free with
    | none => putX rd (status (-1))
    | some n =>
      if s.permittedEngines.isEmpty then putX rd (status (-2))
      else if peer && !(s.dev.ports[e.port]?.any (·.inService)) then putX rd (status (-3))
      else
        waitUntil (decide (c.qc.length < 16))
        modify (State.mapCopy n fun old => { e with gen := old.gen, advanced := old.advanced })
        modify (State.enqueueCopy n)
        putX rd (BitVec.ofNat 64 n)

/-- cpissue (R323). -/
def execCpissue (rd rs1 rs2 : BitVec 5) : State → Host.Outcome State Fault Refusal := issueCopy .local rd rs1 rs2

/-- cpissue.put (R323). -/
def execCpissuePut (rd rs1 rs2 : BitVec 5) : State → Host.Outcome State Fault Refusal := issueCopy .put rd rs1 rs2

/-- cpissue.get (R323). -/
def execCpissueGet (rd rs1 rs2 : BitVec 5) : State → Host.Outcome State Fault Refusal := issueCopy .get rd rs1 rs2

/-- An entry on which `cpwait` does not wait (R325). -/
def CopyEntry.settled (e : CopyEntry) : Bool := e.state == .free || e.state.isFinal || e.state == .suspended

/-- An entry on which `cpwait` raises cause 28 or 49 (R325). -/
def CopyEntry.delivers (e : CopyEntry) : Bool :=
  e.state != .suspended && ((e.lt && e.late) || (e.state == .faulted && !e.obs))

/-- The status of a settled entry (R325). -/
def CopyEntry.waitStatus (e : CopyEntry) : Nat :=
  match e.state with
  | .done => 0
  | .cancelled => 1
  | .faulted => 2
  | .suspended => 4
  | _ => 3

/-- One settled entry of a `cpwait` (R325): its traps, its join, and whether it was freed. -/
def joinEntry (n : Nat) : Exec Bool := do
  let e := (← get).core.copy n
  if e.state = .suspended then return false
  if e.lt && e.late then
    modify (State.mapCopy n fun e => { e with lt := false })
    raise 28 (BitVec.ofNat 64 n)
  if e.state = .faulted && !e.obs then
    modify (State.mapCopy n fun e => { e with obs := true })
    raise 49 (BitVec.ofNat 64 n)
  acquire
  if e.state.isFinal then
    modify (State.mapCopy n CopyEntry.free)
    return true
  return false

/-- The settled entries of a `cpwait`, in order; how many were freed (R325). -/
def joinEntries : List Nat → Exec Nat
  | [] => return 0
  | n :: ns => do
    let freed ← joinEntry n
    let k ← joinEntries ns
    return k + (if freed then 1 else 0)

/-- cpwait (R325): it waits for the entries it names in ascending order, with none freed where it has not begun. -/
def execCpwait (rd rs1 : BitVec 5) : State → Host.Outcome State Fault Refusal :=
  retiring do
    let s ← get
    let names := entryOperand true (s.x rs1)
    require names.isSome
    let ns := names.getD []
    let ready := ns.takeWhile fun n => (s.core.copy n).settled
    waitUntil (ready.length == ns.length || ready.any fun n => (s.core.copy n).delivers)
    let freed ← joinEntries ready
    putX rd (match ns with
      | [n] => BitVec.ofNat 64 (s.core.copy n).waitStatus
      | _ => BitVec.ofNat 64 freed)

/-- sleeptil (R326). -/
def execSleeptil (rd rs1 : BitVec 5) : State → Host.Outcome State Fault Refusal :=
  retiring do
    let s ← get
    if s.tick < (s.x rs1).toNat && s.core.sleep ≠ some true then
      modify (State.mapCore fun c => { c with sleep := some (c.sleep.getD false) })
      throw .wait
    putX rd (BitVec.ofNat 64 s.tick)

/-- The number of a state (R324). -/
def CopyState.code : CopyState → Nat
  | .free => 0
  | .queued => 1
  | .running => 2
  | .stopping => 3
  | .suspended => 4
  | .done => 5
  | .faulted => 6
  | .cancelled => 7

/-- `cpsusp`, `cpresm` or `cpcancel` of the entries an operand names (R327). -/
def copyCommand (act : Nat → State → State) (rd rs1 : BitVec 5) : State → Host.Outcome State Fault Refusal :=
  retiring do
    let s ← get
    let names := entryOperand true (s.x rs1)
    require names.isSome
    let ns := names.getD []
    modify fun s => ns.foldl (fun s n => act n s) s
    let t ← get
    putX rd (match ns with
      | [n] => BitVec.ofNat 64 (t.core.copy n).state.code
      | _ => BitVec.ofNat 64 (ns.filter fun n => (t.core.copy n).state != (s.core.copy n).state).length)

/-- cpsusp (R327). -/
def execCpsusp (rd rs1 : BitVec 5) : State → Host.Outcome State Fault Refusal :=
  copyCommand (State.stopCopy false false) rd rs1

/-- cpresm (R327). -/
def execCpresm (rd rs1 : BitVec 5) : State → Host.Outcome State Fault Refusal :=
  copyCommand State.resumeCopy rd rs1

/-- cpcancel (R327). -/
def execCpcancel (rd rs1 : BitVec 5) : State → Host.Outcome State Fault Refusal :=
  copyCommand (State.stopCopy true false) rd rs1

/-- The state word (R324). -/
def CopyEntry.word (e : CopyEntry) : Nat :=
  e.state.code + num e.late * 2 ^ 3 + num e.lt * 2 ^ 4 + num (e.toCancelled && e.state == .stopping) * 2 ^ 5 +
    num e.accepted * 2 ^ 6 + num e.auto * 2 ^ 7 + e.fcause.toNat * 2 ^ 8 + e.gen.toNat * 2 ^ 16

/-- An item of `cpstat` (R324). -/
def CopyEntry.item (e : CopyEntry) (item : Nat) : Word :=
  match item with
  | 0 => BitVec.ofNat 64 e.word
  | 1 => BitVec.ofNat 64 e.promise
  | 2 => BitVec.ofNat 64 e.done
  | 3 => e.pc
  | 4 => e.faddr
  | 5 => BitVec.ofNat 64 e.nprom
  | _ => BitVec.ofNat 64 e.tfinal

/-- cpstat (R324): item 0 of a final entry observes the copy. -/
def execCpstat (rd rs1 : BitVec 5) (item : BitVec 10) : State → Host.Outcome State Fault Refusal :=
  retiring do
    let s ← get
    let names := entryOperand false (s.x rs1)
    require (names.isSome && decide (item.toNat ≤ 6))
    let n := (s.x rs1).toNat
    let e := s.core.copy n
    if item = 0 && e.state.isFinal then
      acquire
      modify (State.mapCopy n fun e => { e with obs := e.obs || e.state == .faulted })
    putX rd (e.item item.toNat)

/-! ### Events -/

/-- Runs a change of a core's copies, which a fatal error stops with the core (R380). -/
def copyEventOn (core : Nat) (f : State → State) (s : State) : Host.Outcome State Fault Refusal :=
  .next (if s.runs core then s.onCore core f else s)

/-- COPY_ACCEPT (R308, R313). -/
def execCopyAccept (core : Nat) (s : State) : Host.Outcome State Fault Refusal := copyEventOn core State.acceptCopy s

/-- COPY_BEGIN (R316). -/
def execCopyBegin (core entry : Nat) (s : State) : Host.Outcome State Fault Refusal :=
  copyEventOn core (State.beginCopy entry) s

/-- COPY_DONE (R312, R316): some chunks of a copy are performed, and with the last one it is Done. -/
def execCopyDone (core entry chunks : Nat) (s : State) : Host.Outcome State Fault Refusal :=
  copyEventOn core (fun s => s.copyChunks entry (min chunks (s.core.copy entry).chunksLeft)) s

/-- A peer refuses byte k of a copy (R318, R320). -/
def State.refusePeer (entry k : Nat) (s : State) : State :=
  let e := s.core.copy entry
  let s := s.breakOff entry k
  if e.kind = .put then s.faultCopy entry 7 (e.dstAt k) else s.faultCopy entry 5 (e.srcAt k)

/-- A peer refuses a copy at byte k of its next chunk, unless the copy meets a fault of its own no later there (R318, R320): of a
byte that both concern, the fault of its own is recorded, which the spec leaves open (DESIGN CHOICE, log entry 89). -/
def State.peerFault (entry k : Nat) (s : State) : State :=
  let e := s.core.copy entry
  let limit := min (e.done / 4096 * 4096 + 4096) e.total
  match (runBytes entry e limit 4096 e.done s).2 with
  | some f => if f.byte ≤ k then s.copyChunk entry else s.refusePeer entry k
  | none => s.refusePeer entry k

/-- COPY_FAULT (R318): a copy that meets a fault in its remaining chunks reaches it; a peer form may be refused by its peer
at any byte of its next chunk (free values decide whether and which). -/
def State.faultNext (entry : Nat) (s : State) : State :=
  let e := s.core.copy entry
  let own := s.copyChunks entry e.chunksLeft
  let faults := (own.core.copy entry).state == .faulted
  if !e.moving || !e.spaced s.tick || e.lost || e.kind = .local then (if faults then own else s)
  else
    let (w, t) := s.draw
    if faults && w % 2 = 0 then own
    else
      let (v, t) := t.draw
      t.peerFault entry (e.done + v % (min (e.done / 4096 * 4096 + 4096) e.total - e.done))

/-- COPY_FAULT (R318). -/
def execCopyFault (core entry : Nat) (s : State) : Host.Outcome State Fault Refusal :=
  copyEventOn core (State.faultNext entry) s

/-- COPY_STOP (R312, R316): a stopping copy performs some more chunks and stops at that boundary. -/
def execCopyStop (core entry chunks : Nat) (s : State) : Host.Outcome State Fault Refusal :=
  copyEventOn core (fun s =>
    if (s.core.copy entry).state = .stopping then
      (s.copyChunks entry (min chunks (s.core.copy entry).chunksLeft)).finishStop entry
    else s) s

/-- PROMISE_MISS (R314). -/
def execPromiseMiss (core entry : Nat) (s : State) : Host.Outcome State Fault Refusal :=
  copyEventOn core (fun s => s.mapCore (Core.missPromises fun n e => n == entry && e.misses s.tick)) s

/-- One round of the copies of a core: the head of qc is accepted, accepted copies begin, one chunk of each moving copy is
performed, and stops take effect. -/
def State.copyRound (s : State) : State :=
  let live := entryNumbers.filter fun n => let e := s.core.copy n; e.state == .queued || e.state == .running || e.state == .stopping
  if live.isEmpty then s
  else live.foldl (fun s n =>
    let s := s.beginCopy n
    if (s.core.copy n).state = .stopping then s.finishStop n else s.copyChunk n) s.acceptCopy

end Sys2Proof.Machine
end

