-- ==== Sys2Proof/Machine/VecConfig.lean ====
section
/-! DEFINITION. The vector configuration group (05_vector_integer R112 to R114; 15_power_governor R355, R358, R360). -/

namespace Sys2Proof.Machine

/-- The register count that the next vcfg applies: the one requested by vregs, or the one in force (R113). -/
def VCfg.nextReg (c : VCfg) : BitVec 2 := if c.npend = 0 then c.nreg else c.npend

/-- A configuration value that names an element width, a scope and a rounding mode (R113). -/
def cfgLegal (cfg : BitVec 11) : Bool :=
  decide ((cfg.extractLsb' 0 3).toNat ≤ 3 ∧ (cfg.extractLsb' 3 3).toNat ≤ 4 ∧ (cfg.extractLsb' 8 3).toNat ≤ 4)

/-- kvdirty at another register count (R22, R338): a register of the new count is dirty where a byte of it lies in one that was
dirty; 64 bytes of a slice are the least register. -/
def rescaleDirty (old new : Nat) (d : BitVec 32) : BitVec 32 :=
  (List.range 32).foldl (fun m u => if d.getLsbD (u * old / 32) then m ||| 1#32 <<< (u * new / 32) else m) 0

/-- The grant of g lanes and a vector length under a configuration (R113). -/
def VecState.grant (v : VecState) (cfg : BitVec 11) (a g avl : Nat) : VecState :=
  let code := v.cfg.nextReg
  let sew := cfg.extractLsb' 0 3
  let per := 16384 / nregOf code
  let w := sewOf sew
  { v with
    cfg := { vlx := false, g := g, npend := 0, nreg := code, pwr := decide (g < a)
             frm := cfg.extractLsb' 8 3, ord := cfg.getLsbD 7, tail := cfg.getLsbD 6
             scope := cfg.extractLsb' 3 3, sew := sew }
    kvlmax := BitVec.ofNat 17 (a * per / w)
    kvl := BitVec.ofNat 17 (min avl (min (a * per / w) (g * per / w)))
    kvdirty := if code = v.cfg.nreg then v.kvdirty else rescaleDirty (nregOf v.cfg.nreg) (nregOf code) v.kvdirty
    kvstart := 0 }

/-- The charge of lanes gained and the release of lanes lost (R355); a pinned core raises cause 30 where the balance does
not cover them (R113, R358). -/
def powerLanes (g : Nat) : Exec Unit := do
  let s ← get
  let core := s.core.id
  let old := s.core.power.powered
  if old < g then
    let c := laneCharge * (g - old)
    if s.corePinned core then pinnedCharge c else modify (State.payStep core c)
  else modify (State.releaseLoad core (laneCharge * (old - g)) .load)
  modify (State.mapCore fun k => { k with power := { k.power with powered := g } })

/-- vcfg and vcfgi (R113): `high` says that the bits above the configuration value are zero. -/
def configure (rd rs1 : BitVec 5) (cfg : State → BitVec 11) (high : State → Bool) :
    State → Host.Outcome State Fault Refusal :=
  retiring do
    let s ← get
    require (cfgLegal (cfg s) && high s && (s.core.vec.cfg.npend == 0 || s.core.mat.ts == .off))
    checkMode .vector
    enterQv
    let g := (← get).offer s.core.id
    powerLanes g
    let avl := if rs1 = 0 then 2 ^ 64 - 1 else (s.x rs1).toNat
    modify (State.mapVec fun v => v.grant (cfg s) s.lanes g avl)
    putX rd ((← get).core.vec.kvl.setWidth 64)

/-- vcfg (R113). -/
def execVcfg (rd rs1 rs2 : BitVec 5) : State → Host.Outcome State Fault Refusal :=
  configure rd rs1 (fun s => (s.x rs2).setWidth 11) fun s => decide ((s.x rs2).toNat < 2048)

/-- vcfgi (R113). -/
def execVcfgi (rd rs1 : BitVec 5) (cfg : BitVec 11) : State → Host.Outcome State Fault Refusal :=
  configure rd rs1 (fun _ => cfg) fun _ => true

/-- vregs: requests a register count and returns the one in force (R114); it enters qv, and sets kvstart to zero as it
completes (R54, R107, R361). -/
def execVregs (rd code : BitVec 5) : State → Host.Outcome State Fault Refusal :=
  retiring do
    checkMode .vector
    enterQv
    let old := (← get).core.vec.cfg.nreg
    let new : BitVec 2 := code.setWidth 2
    modify (State.mapVec fun v => { v with kvstart := 0, cfg := { v.cfg with npend := if new = old then 0 else new } })
    putX rd (BitVec.ofNat 64 (nregOf old))

end Sys2Proof.Machine
end

