-- ==== Sys2Proof/Machine/Context.lean ====
section
/-! DEFINITION. Saving and restoring a continuation's context (14_system_traps R335 to R343, R349, R350, R411), and the
instructions `ctxsave`, `ctxload`, `kfail`, `trapset` and `trapset.ret` (R348 to R352). -/

namespace Sys2Proof.Machine

/-! ### The siding image -/

/-- The bytes [lo, lo + n) of a map, counted from `lo`. -/
def ByteMap.extract (m : ByteMap) (lo n : Nat) : ByteMap := (m.slice lo n).map fun c => (c.1 - lo, c.2)

/-- A map with the bytes [base, base + n) replaced by the first n of another. -/
def ByteMap.place (m : ByteMap) (base n : Nat) (src : ByteMap) : ByteMap :=
  (m.filter fun c => c.1 < base) ++ (src.filter fun c => c.1 < n).map (fun c => (c.1 + base, c.2)) ++
    m.filter fun c => base + n ≤ c.1

/-- Doublewords from address 0 up. -/
def wordsFrom : Nat → List Nat → ByteMap → ByteMap
  | _, [], m => m
  | a, w :: ws, m => wordsFrom (a + 8) ws (m.write a 8 w)

/-- The lane-mode byte of the header (R336). -/
def MatState.modeByte (m : MatState) : Nat :=
  m.mode.code + m.ts.code * 2 ^ 4 + num m.sk0 * 2 ^ 6 + num m.sk1 * 2 ^ 7

/-- The code of a slot state (R336). -/
def SlotState.code : SlotState → Nat
  | .free => 0
  | .fillingChain => 2
  | _ => 1

/-- The slot states (R336). -/
def MatState.slotCodes (m : MatState) : Nat :=
  (List.range 8).foldl (fun a i => a + (m.slot i).code * 4 ^ i) 0

/-- The tile state once the matrix state and its image agree: clean, unless off or initial (R225, R349, R350). -/
def TileState.afterCopy : TileState → TileState
  | .dirty => .clean
  | t => t

/-- The header (R336), with NSAVE as `cinfo` returns it after the save. -/
def State.headerImage (s : State) (record : Word) (region saves : Nat) : ByteMap :=
  let m := s.core.mat
  let map := s.core.vec.laneMap
  let r := s.core.redirect
  let h : ByteMap := ByteMap.write [] 0 8 record.toNat
  let h := h.write 8 2 region
  let h := h.write 10 1 s.nreg
  let h := h.write 11 1 m.modeByte
  let h := h.write 12 4 saves
  let h := h.write 16 16 map.toNat
  let h := h.write 32 8 s.tick
  let h := h.write 40 4 m.slotCodes
  let h := h.write 44 4 (num m.wv + m.wslot.toNat * 2 + m.wfmt.toNat * 2 ^ 4)
  let h := h.write 48 8 r.handler.toNat
  let h := h.write 56 8 r.block.toNat
  h.write 64 8 (setBit r.mask 63 r.active).toNat

/-- The control-thread area (R337): x2 from sscratch where SCR is set. -/
def State.controlImage (s : State) (scr : Bool) : ByteMap :=
  let c := s.core
  let v := c.vec
  let xs := (List.range 31).map fun k =>
    if scr && k == 1 then c.csr.sscratch.toNat else (s.x (BitVec.ofNat 5 (k + 1))).toNat
  let fs := c.fregs.toList.map (·.toNat)
  wordsFrom 0 (xs ++ fs ++
    [(c.frm ++ c.fflags).toNat, c.csr.sepc.toNat, c.csr.satp.toNat, field c.csr.mstatus 13 2, v.kvstart.toNat,
      v.kvfe.toNat, v.kvfflags.toNat, v.kseed.toNat, v.kstripbase.toNat, v.kstripcnt.toNat, c.mat.kmstep.toNat,
      c.mat.pred.toNat, v.shape2d.toNat, v.kcpshape.toNat, v.kvl.toNat, v.cfg.word.toNat, v.kvlmax.toNat,
      c.krace.word.toNat]) []

/-- The state word of a timetable entry in the siding (R411). -/
def CopyEntry.savedWord (e : CopyEntry) : Nat :=
  e.state.code + num e.late * 2 ^ 3 + num e.lt * 2 ^ 4 + num e.toCancelled * 2 ^ 5 + num e.accepted * 2 ^ 6 +
    num e.auto * 2 ^ 7 + num e.obs * 2 ^ 8 + e.fcause.toNat * 2 ^ 16 + e.gen.toNat * 2 ^ 24 + e.priv.code * 2 ^ 40 +
    num e.sum * 2 ^ 42 + num e.mxr * 2 ^ 43

/-- The 64 bytes of a timetable entry (R411). -/
def CopyEntry.image (e : CopyEntry) : List Nat :=
  let suspended := e.state == .suspended
  if e.state = .free then [e.gen.toNat * 2 ^ 24, 0, 0, 0, 0, 0, 0, 0]
  else
    [e.savedWord, e.done + e.nprom * 2 ^ 36, e.pc.toNat, e.shape.toNat, e.src.toNat,
      if suspended then e.dst.toNat else e.promise, if suspended then e.satp.toNat else e.faddr.toNat,
      if suspended then 0 else e.tfinal]

/-- The timetable entries of the image. -/
def Core.copiesImage (c : Core) : ByteMap := wordsFrom 0 (c.copies.toList.flatMap CopyEntry.image) []

/-- The micro-thread area (R337). -/
def ThreadsState.image (m : ThreadsState) : ByteMap :=
  m.threads.foldl (fun b t =>
    let h := t.2
    let b := b.write (24 * t.1) 8 h.pc.toNat
    let b := b.write (24 * t.1 + 8) 8 h.value.toNat
    b.write (24 * t.1 + 16) 8 (h.state.code + h.cause.toNat * 2 ^ 4 + num h.inSend * 2 ^ 12)) []

/-- The queue counts (R335). -/
def ThreadsState.countsImage (threads : Nat) (m : ThreadsState) : ByteMap :=
  let b : ByteMap := m.counts.foldl (fun (b : ByteMap) q => b.write q.1 1 q.2) []
  (b.write (2 * threads) 1 m.topPort.length).write (2 * threads + 1) 1 m.bottomPort.length

/-- The end ports and the escape buffer (R335). -/
def ThreadsState.portsImage (m : ThreadsState) : ByteMap :=
  let b := wordsFrom 64 (m.bottomPort.map (·.toNat)) (wordsFrom 0 (m.topPort.map (·.toNat)) [])
  match m.escape with
  | some (q, v) => ((b.write 128 8 v.toNat).write 136 4 q).write 140 1 1
  | none => b

/-- One register's bytes of every lane in service enter an image (R335). -/
def VecState.saveRegister (v : VecState) (r : Nat) (img : ByteMap) : ByteMap :=
  let n := 2048 / nregOf v.cfg.nreg
  (lanePositions v.laneMap).foldl (fun (img : ByteMap) l =>
    img.place (0x40000 + 2048 * l + n * r) n ((v.slice l).extract (n * r) n)) img

/-- The siding shadows the continuation that is bound (R338). -/
def Siding.shadows (d : Siding) (bound : Option Continuation) : Bool := d.state == .shadow && bound.any d.holds

/-- The registers a save writes (R338). -/
def State.savedRegisters (s : State) (whole : Bool) : List Nat :=
  (List.range s.nreg).filter fun r => whole || s.core.vec.kvdirty.getLsbD r

/-- A save writes the operand store (R338). -/
def State.savesStore (s : State) (whole : Bool) : Bool := whole || s.core.mat.ts == .dirty

/-- The image a save leaves (R335 to R338): what it does not write stands unchanged. -/
def State.saveImage (s : State) (record : Word) (region saves : Nat) (scr whole : Bool) : ByteMap :=
  let c := s.core
  let img := c.siding.image.place 0 4096 (s.headerImage record region saves)
  let img := img.place 0x1000 4096 (s.controlImage scr)
  let img := img.place 0x2000 4096 c.copiesImage
  let img :=
    if c.mat.mode = .threaded then
      ((img.place 0x3000 98304 c.mt.image).place 0x1B000 12288 (c.mt.countsImage s.threadCount)).place 0x1E000 4096
        c.mt.portsImage
    else img
  let img := if s.savesStore whole then img.place 0x20000 131072 c.mat.store else img
  (s.savedRegisters whole).foldl (fun img r => c.vec.saveRegister r img) img

/-- How many bytes a save writes (R339, R349). -/
def State.savedBytes (s : State) (whole : Bool) : Nat :=
  12288 + (if s.core.mat.mode = .threaded then 114688 else 0) + (if s.savesStore whole then 131072 else 0) +
    (s.savedRegisters whole).length * (s.lanes * (2048 / s.nreg))

/-! ### ctxsave -/

/-- Micro-threads freeze (R257): Executing words complete or fault, and blocked ages return to 0. -/
def State.freezeThreads (s : State) : State :=
  s.completeExecuting.mapMt fun m =>
    { m with threads := m.threads.map (fun t => (t.1, { t.2 with age := 0 })), frozen := true }

/-- The wait of a save, which no interrupt ends (R348): threads freeze, and every copy that is Queued or Running is asked to
stop (R319, R349). -/
def drainForSave : Exec Unit := do
  modify fun s => s.freezeThreads.mapCore fun c => { c with begun := .saving }
  modify fun s => entryNumbers.foldl (fun s n =>
    let e := s.core.copy n
    if e.state = .queued || e.state = .running then s.stopCopy false true n else s) s
  waitUntil (!(← get).core.stopsCopy)

/-- What the siding holds beside its image. -/
def Core.blockNotes (c : Core) : List (Nat × (Word × Bool)) := c.mt.threads.map fun t => (t.1, t.2.last, t.2.fetchFault)

/-- The core once the image is written (R338, R349): nothing is dirty, and its reservations are dropped; with IDLE its copies
are Free. A whole image replaces one with an error in it. -/
def Core.saved (img : ByteMap) (record : Word) (holder : Option Continuation) (whole idle : Bool) (c : Core) : Core :=
  { c with
    siding := { state := .held, record := record, image := img, blocks := c.blockNotes
                kinds := c.copies.toList.map (·.kind), holder := holder, bad := c.siding.bad && !whole }
    vec := { c.vec with kvdirty := 0, reservations := [] }
    mat := { c.mat with ts := c.mat.ts.afterCopy }
    reservation := none
    copies := if idle then c.copies.map CopyEntry.free else c.copies
    cont := holder }

/-- What follows the save of a continuation whose domain is quiescing: the siding is freed (R345). -/
def State.freeIfQuiescing (s : State) : State :=
  if s.mustStop s.core.id then
    s.mapCore fun c => { c with siding := { c.siding with state := .empty, record := 0, holder := none } }
  else s

/-- The continuation becomes Saved and its core idle (R86, R341, R349), or Quiesced where its domain is (R345). -/
def State.idleAfterSave (s : State) : State :=
  let core := s.core.id
  let stop := bit s.core.csr.mip 16
  match s.core.cont with
  | none => s.goIdle core stop
  | some k =>
    let s' := if s.mustStop core then s.freeIfQuiescing else s.addSaved k.region 1
    (s'.addRunning k.region (-1)).goIdle core stop

/-- ctxsave (R348, R349). Every save counts for NSAVE and item 13 of `cinfo`, one without IDLE too, which enters no Saved state
(R95, R336; DEDUCED, log entry 45). -/
def execCtxsave (rd : BitVec 5) (flags : BitVec 3) : State → Host.Outcome State Fault Refusal :=
  execute do
    require ((← get).core.priv ≠ .user)
    if (← get).core.siding.state = .held then
      putX rd (status (-1))
      modify State.retire
    else
      drainForSave
      modify State.landAll
      let s ← get
      let record := (s.core.cont.map (·.record)).getD 0
      let holder := s.core.cont.map fun k => { k with saves := k.saves + 1 }
      let whole := flags.getLsbD 1 || !s.core.siding.shadows s.core.cont
      let img := s.saveImage record (s.region.getD 0) ((holder.map (·.saves)).getD 0) (flags.getLsbD 2) whole
      modify (State.mapCore (Core.saved img record holder whole (flags.getLsbD 0)))
      if flags.getLsbD 0 then modify fun s => s.retire.idleAfterSave
      else
        modify State.freeIfQuiescing
        putX rd (BitVec.ofNat 64 (s.savedBytes whole))
        modify State.retire

/-! ### ctxload -/

/-- A doubleword of the control-thread area. -/
def ByteMap.item (img : ByteMap) (i : Nat) : Word := BitVec.ofNat 64 (img.read (0x1000 + 8 * i) 8)

/-- The integer registers of an image (R337). -/
def ByteMap.xRegs (img : ByteMap) : Vector Word 32 :=
  (Vector.range 32).map fun k => if k = 0 then 0 else img.item (k - 1)

/-- The floating-point registers of an image (R337). -/
def ByteMap.fRegs (img : ByteMap) : Vector Word32 32 := (Vector.range 32).map fun k => (img.item (31 + k)).setWidth 32

/-- The vector state of an image on a core (R335, R337, R350): lanes out of service keep their slices. -/
def VecState.restored (img : ByteMap) (v : VecState) : VecState :=
  { v with
    kvstart := (img.item 67).setWidth 17
    kvfe := (img.item 68).setWidth 32
    kvfflags := (img.item 69).setWidth 5
    seed := (img.item 70).setWidth 32
    bqDelta := (img.item 70).extractLsb' 32 4
    kstripbase := img.item 71
    kstripcnt := img.item 72
    rows := (img.item 75).setWidth 16
    pitch := (img.item 75).extractLsb' 16 32
    kcpshape := img.item 76
    kvl := (img.item 77).setWidth 17
    cfg := VCfg.ofWord (img.item 78)
    kvlmax := (img.item 79).setWidth 17
    kvdirty := 0
    vrf := (Vector.range 128).map fun l => if v.laneMap.getLsbD l then img.extract (0x40000 + 2048 * l) 2048 else v.slice l
    full := BitVec.allOnes 32
    inFlight := []
    reservations := []
    linkLines := [] }

/-- The slot states of an image (R336). -/
def slotOfCode (n : Nat) : SlotState := match n with | 0 => .free | 2 => .fillingChain | _ => .ready

/-- The lane mode of a code. -/
def LaneMode.ofCode (n : Nat) : LaneMode := match n with | 0 => .vector | 1 => .threaded | _ => .matrix

/-- The weights that the restored slots arm (R245, R350). -/
def armedImage (store : ByteMap) (slot fmt : Nat) : ByteMap := store.extract (16384 * slot) (if 5 ≤ fmt then 32768 else 16384)

/-- The matrix state of an image (R336, R337, R350). -/
def MatState.restored (img : ByteMap) : MatState :=
  let b := img.read 11 1
  let w := img.read 44 4
  let store := img.extract 0x20000 131072
  { mode := LaneMode.ofCode (b % 8)
    phase := .none
    ts := (TileState.ofCode (b / 16 % 4)).afterCopy
    sk0 := b.testBit 6
    sk1 := b.testBit 7
    wv := w.testBit 0
    wslot := BitVec.ofNat 3 (w / 2)
    wfmt := BitVec.ofNat 3 (w / 16)
    slots := (Vector.range 8).map fun i => slotOfCode (img.read 40 4 / 4 ^ i % 4)
    store := store
    armed := if w.testBit 0 then armedImage store (w / 2 % 8) (w / 16 % 8) else []
    kmstep := (img.item 73).setWidth 16
    predDepth := (img.item 74).extractLsb' 16 16
    predCols := (img.item 74).extractLsb' 8 7
    predRows := (img.item 74).setWidth 8 }

/-- The state of a number (R268). -/
def ThreadState.ofCode (n : Nat) : ThreadState :=
  match n with
  | 1 => .fetching
  | 2 => .ready
  | 3 => .executing
  | 4 => .blocked
  | 5 => .faulted
  | _ => .stopped

/-- A micro-thread of an image (R337), with what the siding notes of its block; one that was Fetching fetches again by itself
(R257). -/
def Thread.restored (img : ByteMap) (now : Nat) (note : Nat × (Word × Bool)) : Nat × Thread :=
  let a := 0x3000 + 24 * note.1
  let w := img.read (a + 16) 8
  (note.1, ⟨ThreadState.ofCode (w % 16), BitVec.ofNat 64 (img.read a 8), note.2.1, BitVec.ofNat 8 (w / 16),
    BitVec.ofNat 64 (img.read (a + 8) 8), w.testBit 12, 0, note.2.2, none, false, now, none⟩)

/-- The doublewords from an address. -/
def ByteMap.words (m : ByteMap) (a n : Nat) : List Word :=
  (List.range n).map fun i => BitVec.ofNat 64 (m.read (a + 8 * i) 8)

/-- The threaded-mode state of an image of M micro-threads (R335, R337, R350): the token at position 0. The image has no place for
the slot from which each lane issued last, so that every lane starts at slot 0 again (DESIGN CHOICE, log entry 83). -/
def ThreadsState.restored (img : ByteMap) (now : Nat) (notes : List (Nat × (Word × Bool))) (m : Nat) : ThreadsState :=
  { ThreadsState.reset with
    threads := notes.map (Thread.restored img now)
    counts := (img.extract 0x1B000 (2 * m)).map fun c => (c.1, c.2.toNat)
    topPort := img.words 0x1E000 (img.read (0x1B000 + 2 * m) 1)
    bottomPort := img.words 0x1E040 (img.read (0x1B001 + 2 * m) 1)
    escape := if img.read 0x1E08C 1 = 0 then none
      else some (img.read 0x1E088 4, BitVec.ofNat 64 (img.read 0x1E080 8)) }

/-- The state of a number (R324). -/
def CopyState.ofCode (n : Nat) : CopyState :=
  match n with
  | 1 => .queued
  | 2 => .running
  | 3 => .stopping
  | 4 => .suspended
  | 5 => .done
  | 6 => .faulted
  | 7 => .cancelled
  | _ => .free

/-- A timetable entry of an image (R411). -/
def CopyEntry.restored (img : ByteMap) (n : Nat) (kind : CopyKind) (advanced owner : Option Nat) : CopyEntry :=
  let at_ (i : Nat) : Word := BitVec.ofNat 64 (img.read (0x2000 + 64 * n + 8 * i) 8)
  let w := at_ 0
  let st := CopyState.ofCode (field w 0 3)
  let suspended := st == .suspended
  { state := st
    gen := w.extractLsb' 24 16
    done := field (at_ 1) 0 36
    promise := if suspended then 0 else (at_ 5).toNat
    nprom := field (at_ 1) 36 28
    pc := at_ 2
    lt := bit w 4
    late := bit w 3
    obs := bit w 8
    auto := bit w 7
    fcause := w.extractLsb' 16 8
    faddr := if suspended then 0 else at_ 6
    tfinal := if suspended then 0 else (at_ 7).toNat
    accepted := bit w 6
    begun := false
    toCancelled := bit w 5
    bySave := false
    lost := false
    missed := false
    engine := 0
    kind := kind
    shape := at_ 3
    src := at_ 4
    dst := if suspended then at_ 5 else 0
    satp := if suspended then at_ 6 else 0
    priv := privOf (field w 40 2)
    sum := bit w 42
    mxr := bit w 43
    advanced := advanced
    owner := owner }

/-- The entries of an image: those suspended by the save re-enter qc, in ascending order, since R319 names none (DESIGN CHOICE, log
entry 89). -/
def Core.restoreCopies (img : ByteMap) (kinds : List CopyKind) (c : Core) : Core :=
  let es := (Vector.range 64).map fun n => CopyEntry.restored img n (kinds.getD n .local) (c.copy n).advanced
    (c.siding.holder.map (·.region))
  let again := entryNumbers.filter fun n => match es[n]? with
    | some e => e.state == .suspended && e.auto
    | none => false
  { c with
    copies := es.map fun e => if e.state = .suspended ∧ e.auto then e.requeue else e
    qc := again }

/-- A lane retirement takes effect on the vector state (R23, R110). -/
def VecState.retired (v : VecState) : VecState :=
  let a := lanesInService v.laneMap
  let vlmax := vlmaxOf v.laneMap (nregOf v.cfg.nreg) (sewOf v.cfg.sew)
  { v with
    cfg := { v.cfg with vlx := true, g := min v.cfg.g a }
    kvl := BitVec.ofNat 17 (min v.kvl.toNat vlmax)
    kvlmax := BitVec.ofNat 17 vlmax }

/-- A lane retirement takes effect on a core's context (R110, R227, R258); the zeroing of the tiles marks no register
dirty (R338, R350). -/
def Core.retireContext (c : Core) : Core :=
  let v := c.vec.retired
  let rows := min c.mat.predRows.toNat (kmrowsOf v.laneMap)
  let c := { c with vec := v, mt := if c.mat.mode = .threaded then ThreadsState.reset else c.mt }
  if c.mat.ts = .off then c
  else { c with
    vec := { (v.zeroTile 0).zeroTile 1 with kvdirty := v.kvdirty }
    mat := { c.mat with sk0 := false, sk1 := false, wv := false, kmstep := 0, predRows := BitVec.ofNat 8 rows } }

/-- The context of the siding returns to the core (R350). -/
def Core.restored (satp : Word) (c : Core) : Core :=
  let d := c.siding
  let img := d.image
  let v := c.vec.restored img
  let mat := MatState.restored img
  let r : Word := BitVec.ofNat 64 (img.read 64 8)
  let c := c.restoreCopies img d.kinds
  let c := { c with
    regs := img.xRegs
    fregs := img.fRegs
    frm := (img.item 63).extractLsb' 5 3
    fflags := (img.item 63).setWidth 5
    vec := v
    mat := mat
    mt := if mat.mode = .threaded then
        ThreadsState.restored img c.clock d.blocks (threadCount (BitVec.ofNat 128 (img.read 16 16)) (nregOf v.cfg.nreg))
      else ThreadsState.reset
    krace := Krace.ofWord (img.item 80)
    csr := { c.csr with satp := satp, trapDepth := 0, mstatus := setField c.csr.mstatus 13 2 (field (img.item 66) 0 2) }
    redirect := { handler := BitVec.ofNat 64 (img.read 48 8), block := BitVec.ofNat 64 (img.read 56 8)
                  mask := setBit r 63 false, active := bit r 63 }
    priv := .user
    pc := img.item 64
    reservation := none
    dcache := []
    cont := c.cont.map fun k => { k with satp := satp }
    siding := { d with state := .shadow } }
  if BitVec.ofNat 128 (img.read 16 16) = c.vec.laneMap then c else c.retireContext

/-- The charge of the lanes and of the mode a restore powers, beyond what the core has been charged (R355, R358): a pinned region
that is short charges nothing and leaves cause 30 pending. -/
def chargeRestore (mode : LaneMode) (powered : Nat) : Exec Unit := do
  let s ← get
  let core := s.core.id
  let old := s.core.power.modeCharge + laneCharge * (s.core.power.powered - 1)
  let new := modeLoad mode powered
  if old < new then
    if s.corePinned core then
      if !(← pinnedStep (new - old)) then modify (State.mapCore fun c => { c with rampPending := true })
    else awaitCharge (.requeue core) (new - old)
  else modify (State.releaseLoad core (old - new) .load)
  modify (State.mapCore fun k => { k with power := { k.power with modeCharge := modeCost mode, powered := powered } })

/-- ctxload (R348, R350), with which what the restore leaves of a kept load is released (R341, R362): a core whose domain is quiescing stops instead (R345); an uncorrectable error in the image raises
cause 5 with stval 0 (R376). -/
def execCtxload : State → Host.Outcome State Fault Refusal :=
  execute do
    let s ← get
    require (s.core.priv ≠ .user)
    if s.mustStop s.core.id then modify fun s => s.retire.quiesceCore s.core.id
    else
      require (s.core.siding.state == .held)
      if s.core.siding.bad then raise 5 0
      let img := s.core.siding.image
      let mat := MatState.restored img
      let cfg := VCfg.ofWord (img.item 78)
      chargeRestore mat.mode (if mat.mode = .vector then max 1 (min cfg.g s.lanes) else s.lanes)
      let region := (s.core.siding.holder.map (·.region)).getD (img.read 8 2)
      modify fun s => ((s.retire.mapCore (Core.restored (s.regionSatp region))).releaseKept s.core.id).noteHead

/-! ### kfail and trapset -/

/-- kfail (R344, R351). With rs2 = x0 and no continuation bound, of which the rule does not speak, no region is named, so that
it raises cause 2 as for a region that is not live (DESIGN CHOICE, log entry 63). -/
def execKfail (rs1 rs2 : BitVec 5) : State → Host.Outcome State Fault Refusal :=
  execute do
    let s ← get
    let core := s.core.id
    let user := s.core.priv = .user
    let g? := if rs2 = 0 then s.region else some (s.x rs2).toNat
    require (!(user && rs2 ≠ 0) && g?.any s.isLive)
    let g := g?.getD 0
    let c := s.core.csr
    let info : FaultInfo :=
      if user then ⟨g, 255, 1, core, 0, s.core.pc, s.x rs1⟩
      else ⟨g, field c.scause 0 8, 2, core, c.stval, c.sepc, s.x rs1⟩
    modify (State.quiesce g info)
    if s.region.any (s.within (s.domainRoot maxLevel g)) then modify (State.quiesceCore core) else modify State.retire

/-- The mask of the eligible causes (R352). -/
def eligibleMask : Word := eligibleCauses.foldl (fun m c => setBit m c true) 0

/-- trapset (R352). -/
def execTrapset (rd rs1 rs2 : BitVec 5) : State → Host.Outcome State Fault Refusal :=
  retiring do
    let s ← get
    let b := s.x rs1
    let m := s.x rs2
    require (decide (b.toNat % 32 = 0) && m &&& ~~~eligibleMask == 0)
    let old := setBit s.core.redirect.mask 63 s.core.redirect.active
    if m ≠ 0 then
      let h ← scalarLoad b 8
      modify (State.mapCore fun c => { c with redirect := { c.redirect with handler := BitVec.ofNat 64 h } })
    modify (State.mapCore fun c => { c with redirect := { c.redirect with block := b, mask := m } })
    putX rd old

/-- trapset.ret (R348, R352). -/
def execTrapsetRet : State → Host.Outcome State Fault Refusal :=
  execute do
    let s ← get
    require (s.core.priv == .user && s.core.redirect.active)
    let target ← scalarLoad (s.core.redirect.block + 8) 8
    modify fun s => ((s.retireTo (BitVec.ofNat 64 target)).mapCore fun c =>
      { c with redirect := { c.redirect with active := false } }).invalidateData

end Sys2Proof.Machine
end

