-- ==== Sys2Proof/Machine/CsrOps.lean ====
section
/-! DEFINITION. The CSR instructions (03_control_thread R63), `kclock` (R66) and `sfence.vma` (14_system_traps R353), which wait
for what the core's micro-threads are executing. -/

namespace Sys2Proof.Machine

/-- The CSRs that are read at once, without waiting: cycle, time, ksttime (R63) and kpwgrant (R364). -/
def readAtOnce (a : BitVec 12) : Bool := a == 0xC00 || a == 0xC01 || a == 0xCC9 || a == 0xCCA

/-- The CSRs whose read or write waits for the slots that an earlier `mslotld` fills: kxstatus and kmctl (R63, R233, R234). -/
def showsSlots (a : BitVec 12) : Bool := a == 0xCC4 || a == 0x5C8

/-- The loads of operand-store slots have landed. -/
def MatState.slotsLanded (m : MatState) : Bool := !m.slots.toList.contains .fillingLoad

/-- A CSR instruction (R63): an undefined address, a privilege that does not reach, or a write to the read-only range
raises cause 2; every word that a micro-thread is executing completes first, and a slot that an earlier `mslotld` fills is
Ready before kxstatus or kmctl is accessed; the old value goes to rd and the new one to the CSR. -/
def csrOp (a : BitVec 12) (rd : BitVec 5) (write : Bool) (f : Word → Word) : Exec Unit := do
  if !readAtOnce a then modify State.completeExecuting
  match (← get).readCsr a.toNat with
  | none => illegal
  | some old =>
    if write && a.toNat / 1024 = 3 then illegal
    awaitLoads (!showsSlots a || (← get).core.mat.slotsLanded)
    if write then modify (State.writeCsr a.toNat (f old))
    putX rd old

/-- The value a set or clear of mip, sip works on: the bits as they read (R328). -/
def setBits (v old : Word) : Word := old ||| v

/-- Clears bits. -/
def clearBits (v old : Word) : Word := old &&& ~~~v

/-- CSRRW (R63). -/
def execCsrrw (rd rs1 : BitVec 5) (csr : BitVec 12) (s : State) : Host.Outcome State Fault Refusal :=
  retiring (csrOp csr rd true fun _ => s.x rs1) s

/-- CSRRS (R63): rs1 = x0 reads only. -/
def execCsrrs (rd rs1 : BitVec 5) (csr : BitVec 12) (s : State) : Host.Outcome State Fault Refusal :=
  retiring (csrOp csr rd (rs1 ≠ 0) (setBits (s.x rs1))) s

/-- CSRRC (R63): rs1 = x0 reads only. -/
def execCsrrc (rd rs1 : BitVec 5) (csr : BitVec 12) (s : State) : Host.Outcome State Fault Refusal :=
  retiring (csrOp csr rd (rs1 ≠ 0) (clearBits (s.x rs1))) s

/-- CSRRWI (R63). -/
def execCsrrwi (rd uimm : BitVec 5) (csr : BitVec 12) (s : State) : Host.Outcome State Fault Refusal :=
  retiring (csrOp csr rd true fun _ => uimm.setWidth 64) s

/-- CSRRSI (R63): uimm = 0 reads only. -/
def execCsrrsi (rd uimm : BitVec 5) (csr : BitVec 12) (s : State) : Host.Outcome State Fault Refusal :=
  retiring (csrOp csr rd (uimm ≠ 0) (setBits (uimm.setWidth 64))) s

/-- CSRRCI (R63): uimm = 0 reads only. -/
def execCsrrci (rd uimm : BitVec 5) (csr : BitVec 12) (s : State) : Host.Outcome State Fault Refusal :=
  retiring (csrOp csr rd (uimm ≠ 0) (clearBits (uimm.setWidth 64))) s

/-- Waits until every earlier access of the core has been performed (R66, R353): those of the words that micro-threads are executing,
and the loads in flight. -/
def awaitAccesses : Exec Unit := do
  modify State.completeExecuting
  awaitLoads ((← get).loadsInFlight = 0)

/-- KCLOCK (R66): ksttime once every earlier access has been performed. -/
def execKclock (rd : BitVec 5) : State → Host.Outcome State Fault Refusal :=
  retiring do
    awaitAccesses
    putX rd (BitVec.ofNat 64 (← get).tick)

/-- SFENCE.VMA (R188, R353): cause 2 in user mode, and in supervisor mode under TVM; it waits until every earlier access of the core
is performed. It empties the cluster walker, whose entries are not tagged with an address space (log entry 13). -/
def execSfenceVma (rs1 rs2 : BitVec 5) : State → Host.Outcome State Fault Refusal :=
  retiring do
    privileged
    let s ← get
    if s.core.priv = .supervisor && bit s.core.csr.mstatus 20 then illegal
    awaitAccesses
    let asid := (s.operand? rs2).map fun v => v.setWidth 16
    let gone := TlbEntry.named (s.operand? rs1) asid
    modify fun t => (t.mapCore fun c =>
      { c with tlb := c.tlb.filter fun e => !gone e, vtlb := c.vtlb.filter fun e => !gone e }).mapMem fun m =>
        { m with walkers := m.walkers.filter fun w => w.1 ≠ s.core.id / 12 }

end Sys2Proof.Machine
end

