-- ==== Sys2Proof/Machine/Boot.lean ====
section
/-! DEFINITION. The two algorithms that the boot ROM applies to an image, which the manual names and does not define
(16_device_service R381): SHA-512 as FIPS 180-4 defines it, and the Ed25519 check as RFC 8032 defines it (PRESUMED, log
entry 16). -/

namespace Sys2Proof.Machine

/-! ### SHA-512 -/

/-- The integer part of the k-th root of n, searched from bit `i` down. -/
def rootFrom (k n : Nat) : Nat → Nat → Nat
  | 0, acc => acc
  | i + 1, acc => rootFrom k n i (if (acc + 2 ^ i) ^ k ≤ n then acc + 2 ^ i else acc)

/-- The first 64 bits of the fractional part of the k-th root of p. -/
def rootFraction (k p : Nat) : Word := BitVec.ofNat 64 (rootFrom k (p * 2 ^ (64 * k)) 70 0)

/-- The first 80 primes. -/
def primes80 : List Nat := (List.range 410).filter fun n => 2 ≤ n && (List.range n).all fun m => m < 2 || n % m ≠ 0

/-- The round constants. -/
def shaConstants : List Word := primes80.map (rootFraction 3)

/-- The initial hash value. -/
def shaInitial : List Word := (primes80.take 8).map (rootFraction 2)

/-- The big-endian number of a list of bytes. -/
def beValue (l : List Byte) : Nat := l.foldl (fun v b => v * 256 + b.toNat) 0

/-- The message followed by the padding. -/
def shaPad (m : List Byte) : List Byte :=
  m ++ 0x80#8 :: List.replicate ((239 - m.length % 128) % 128) 0 ++ (leBytes 16 (8 * m.length)).reverse

/-- The message schedule of a block, the newest word first. -/
def shaSchedule : Nat → List Word → List Word
  | 0, ws => ws
  | n + 1, ws =>
    let a := ws.getD 1 0
    let b := ws.getD 14 0
    let s1 := a.rotateRight 19 ^^^ a.rotateRight 61 ^^^ (a >>> 6)
    let s0 := b.rotateRight 1 ^^^ b.rotateRight 8 ^^^ (b >>> 7)
    shaSchedule n ((s1 + ws.getD 6 0 + s0 + ws.getD 15 0) :: ws)

/-- One round. -/
def shaRound (h : List Word) (kw : Word × Word) : List Word :=
  match h with
  | [a, b, c, d, e, f, g, i] =>
    let t1 := i + (e.rotateRight 14 ^^^ e.rotateRight 18 ^^^ e.rotateRight 41) + ((e &&& f) ^^^ (~~~e &&& g)) + kw.1 + kw.2
    let t2 := (a.rotateRight 28 ^^^ a.rotateRight 34 ^^^ a.rotateRight 39) + ((a &&& b) ^^^ (a &&& c) ^^^ (b &&& c))
    [t1 + t2, a, b, c, d + t1, e, f, g]
  | _ => h

/-- The eight-byte words of a block, the newest first. -/
def shaWords (m : List Byte) : Nat → List Word
  | 0 => []
  | n + 1 => BitVec.ofNat 64 (beValue ((m.drop (8 * n)).take 8)) :: shaWords m n

/-- One block. -/
def shaBlock (h : List Word) (block : List Byte) : List Word :=
  let w := (shaSchedule 64 (shaWords block 16)).reverse
  let r := (shaConstants.zip w).foldl shaRound h
  (h.zip r).map fun p => p.1 + p.2

/-- Some blocks. -/
def shaBlocks : Nat → List Word → List Byte → List Word
  | 0, h, _ => h
  | n + 1, h, m => shaBlocks n (shaBlock h (m.take 128)) (m.drop 128)

/-- SHA-512: 64 bytes. -/
def sha512 (m : List Byte) : List Byte :=
  let p := shaPad m
  (shaBlocks (p.length / 128) shaInitial p).flatMap fun w => (leBytes 8 w.toNat).reverse

/-! ### Ed25519 -/

/-- The field's prime. -/
def edP : Nat := 2 ^ 255 - 19

/-- The order of the base point. -/
def edL : Nat := 2 ^ 252 + 27742317777372353535851937790883648493

/-- A power in the field, over the low bits of the exponent. -/
def edPow : Nat → Nat → Nat → Nat
  | 0, _, _ => 1
  | n + 1, b, e =>
    let r := edPow n (b * b % edP) (e / 2)
    if e % 2 = 1 then r * b % edP else r

/-- The inverse in the field. -/
def edInv (a : Nat) : Nat := edPow 255 a (edP - 2)

/-- The curve's constant d. -/
def edD : Nat := (edP - 121665) * edInv 121666 % edP

/-- A difference in the field. -/
def edSub (a b : Nat) : Nat := (a + edP - b % edP) % edP

/-- A point in extended coordinates. -/
structure EdPoint where
  x : Nat
  y : Nat
  z : Nat
  t : Nat
deriving DecidableEq, Repr

/-- The sum of two points. -/
def EdPoint.add (p q : EdPoint) : EdPoint :=
  let a := edSub p.y p.x * edSub q.y q.x % edP
  let b := (p.y + p.x) * (q.y + q.x) % edP
  let c := p.t * 2 * edD * q.t % edP
  let d := p.z * 2 * q.z % edP
  let e := edSub b a
  let f := edSub d c
  let g := d + c
  let h := b + a
  ⟨e * f % edP, g * h % edP, f * g % edP, e * h % edP⟩

/-- A multiple of a point, over the low bits of the scalar. -/
def EdPoint.times : Nat → Nat → EdPoint → EdPoint
  | 0, _, _ => ⟨0, 1, 1, 0⟩
  | n + 1, k, p =>
    let r := EdPoint.times n (k / 2) (p.add p)
    if k % 2 = 1 then r.add p else r

/-- Two points are the same. -/
def EdPoint.same (p q : EdPoint) : Bool :=
  p.x * q.z % edP == q.x * p.z % edP && p.y * q.z % edP == q.y * p.z % edP

/-- The point that a 32-byte number encodes, if any. -/
def edDecode (v : Nat) : Option EdPoint :=
  let y := v % 2 ^ 255
  let sign := v / 2 ^ 255 % 2
  if edP ≤ y then none
  else
    let x2 := edSub (y * y) 1 * edInv ((edD * (y * y) + 1) % edP) % edP
    let r := edPow 255 x2 ((edP + 3) / 8)
    let r := if r * r % edP = x2 then r else r * edPow 255 2 ((edP - 1) / 4) % edP
    if r * r % edP ≠ x2 || (r == 0 && sign == 1) then none
    else
      let x := if r % 2 = sign then r else edP - r
      some ⟨x, y, 1, x * y % edP⟩

/-- The base point, which encodes y = 4/5 with an even x. -/
def edBase : EdPoint := (edDecode (4 * edInv 5 % edP)).getD ⟨0, 1, 1, 0⟩

/-- The Ed25519 check of a 64-byte signature of a message under a 32-byte key. -/
def edVerify (key : Nat) (message signature : List Byte) : Bool :=
  let rBytes := signature.take 32
  let s := leValue (signature.drop 32)
  match edDecode key, edDecode (leValue rBytes) with
  | some a, some r =>
    let k := leValue (sha512 (rBytes ++ leBytes 32 key ++ message)) % edL
    decide (s < edL) && (EdPoint.times 256 s edBase).same (r.add (EdPoint.times 256 k a))
  | _, _ => false

end Sys2Proof.Machine
end

