-- ==== Sys2Proof/Machine/Power.lean ====
section
/-! DEFINITION. Power control (15_power_governor R354 to R375): the station tick, cluster DVFS, limit records, idle cores
and their gating, the instructions of KS funct3 0b100, and the governor's events. -/

namespace Sys2Proof.Machine

/-! ### Cluster DVFS -/

/-- The cores of a cluster. -/
def clusterCores (k : Nat) : List Nat := (List.range 12).map (12 * k + ·)

/-- Interrupt 18 becomes pending on every core of a cluster where sie enables it (R359, R366). -/
def State.clusterEvent (k : Nat) (s : State) : State :=
  s.mapCores fun c => if c.id / 12 = k then c.pendIfEnabled 18 else c

/-- A core is gated (R368). -/
def Core.isGated (c : Core) : Bool := match c.power.gate with | .gated => true | _ => false

/-- The charge of one level of a cluster (R355). -/
def State.levelCharge (s : State) (k : Nat) : Nat :=
  800 * ((clusterCores k).filter fun c => !(s.coreOf c).isGated).length

/-- A cluster goes towards its target (R366): it queues the charge or the release of one level, or is Idle. The cores that are not
gated are counted as it is queued, and not again as it is paid: R355 does not say when (DESIGN CHOICE, log entry 108). -/
def State.glide (k : Nat) (s : State) : State :=
  let cl := s.cluster k
  let amount := s.levelCharge k
  if cl.level < cl.target then
    (s.mapCluster k fun c => { c with dvfs := .charging }).mapDie (k / 8) fun d =>
      { d with charges := d.charges ++ [⟨.level k, amount, none⟩] }
  else if cl.target < cl.level then
    (s.mapCluster k fun c => { c with dvfs := .releasing }).mapDie (k / 8) fun d =>
      { d with releases := d.releases ++ [⟨12 * k, amount, .level k, 0⟩] }
  else (s.mapCluster k fun c =>
    { c with dvfs := .idle, lastStatus := if c.superseded then 5 else c.lastStatus, superseded := false }).clusterEvent k

/-- A cluster that is Idle above MAXLVL is forced down (R366). -/
def State.forceDown (k : Nat) (s : State) : State :=
  let cl := s.cluster k
  if cl.dvfs = .idle ∧ cl.maxlvl < cl.level then
    (s.mapCluster k fun c => { c with target := c.maxlvl, undervolt := 0, forced := true }).glide k
  else s

/-- One step of a glide, and the forced step after it. -/
def State.advanceGlide (k : Nat) (s : State) : State := (s.glide k).forceDown k

/-- The rail of a cluster reaches its target, once the slew allows it (R365, R366). -/
def State.railReached (k : Nat) (s : State) : State :=
  if s.tick < (s.cluster k).arrive then s else
  match (s.cluster k).dvfs with
  | .voltUp => s.moveClock k .freqUp
  | .voltDown | .voltAdj => s.advanceGlide k
  | _ => s

/-- RAIL_AT_TARGET (R366). -/
def execRailAtTarget (cluster : Nat) (s : State) : Host.Outcome State Fault Refusal :=
  .next (if cluster < 192 then s.railReached cluster else s)

/-- The clock of a cluster reaches the next level, once its step has taken its time (R365, R366). -/
def State.clockReached (k : Nat) (s : State) : State :=
  let cl := s.cluster k
  let listed := s.listCores (clusterCores k)
  if s.tick < cl.arrive then s else
  match cl.dvfs with
  | .freqUp => (listed.mapCluster k fun c => { c with level := c.level + 1 }).advanceGlide k
  | .freqDown =>
    (listed.mapCluster k fun c => { c with level := c.level - 1 }).moveRail k .voltDown
      (s.railTarget (cl.level - 1) cl.undervolt)
  | _ => s

/-- CLOCK_AT_LEVEL (R366). -/
def execClockAtLevel (cluster : Nat) (s : State) : Host.Outcome State Fault Refusal :=
  .next (if cluster < 192 then s.clockReached cluster else s)

/-! ### Limit records -/

/-- A continuation has entered Running on a core, whose load its power state then holds (R86). -/
def Core.loaded (c : Core) : Bool := c.cont.any fun k => k.phase != .binding

/-- A changed cap level on a core that runs a continuation (R204, R356, R359): a raised one is a falling step; a lowered one is
a transfer where H covers it, and else waits for its charge, the core keeping the old one until then; a charge that waits for
another level is withdrawn. A core in Binding takes the level in force at its dispatch. That the charge waits on a pinned core too, as
R359 has it and R358 does not, is a DESIGN CHOICE (log entry 106). -/
def State.changeCap (core new : Nat) (s : State) : State :=
  let c := s.coreOf core
  let old := c.power.cap
  let step := 200 * ((old - new) + (new - old))
  let s := s.withdrawCharge (dieOf core) (.cap core)
  if !c.loaded then s
  else if old < new then
    (s.releaseLoad core step .load).updCore core fun c =>
      { c with power := { c.power with cap := new, capCharge := c.power.capCharge - step } }
  else if new < old then
    if s.netCharge core step = 0 then
      (s.useHeld core step).updCore core fun c =>
        { c with power := { c.power with cap := new, capCharge := c.power.capCharge + step } }
    else s.mapDie (dieOf core) fun d =>
      { d with charges := d.charges ++ [⟨.cap core, step, c.cont.map (·.region)⟩] }
  else s

/-- MAXLVL below the target of a request in progress cuts it (R366). -/
def State.cutTarget (k : Nat) (s : State) : State :=
  let cl := s.cluster k
  if cl.target ≤ cl.maxlvl then s
  else match cl.dvfs with
    | .charging =>
      let s := s.withdrawCharge (k / 8) (.level k)
      (s.mapCluster k fun c =>
        { c with target := max c.level c.maxlvl, forced := true, superseded := true }).advanceGlide k
    | .voltUp | .freqUp => s.mapCluster k fun c =>
        { c with target := max (c.level + 1) c.maxlvl, forced := true, superseded := true }
    | _ => s

/-- MAXLVL of a cluster is set (R359, R366): one below the target of a request cuts it, and one below the level of an Idle cluster
forces it down, level by level, each for its release. -/
def State.limitLevel (k n : Nat) (s : State) : State :=
  ((s.mapCluster k fun c => { c with maxlvl := n }).cutTarget k).forceDown k

/-- LIMIT_RECORD_UPDATE (R359, R366): interrupt 18 becomes pending on the cluster's cores. In maquette service MAXLVL stays 0
(R383). -/
def execLimitRecordUpdate (cluster : Nat) (maxlvl : BitVec 4) (ceil : BitVec 8) (cap : BitVec 20) (s : State) :
    Host.Outcome State Fault Refusal :=
  .next (if 192 ≤ cluster then s else
    let maxlvl := if s.dev.service = .maquette then 0 else maxlvl
    let lanes := max 1 (min 128 ceil.toNat)
    let level := cap.toNat % 4
    let s := s.mapCluster cluster fun c => { c with ceil := lanes, cap := level }
    let s := (clusterCores cluster).foldl (fun s c => s.changeCap c level) s
    (s.limitLevel cluster maxlvl.toNat).clusterEvent cluster)

/-! ### Idle cores -/

/-- The gating of a core in hold is queued for its 300 mA (R368). Its release grows no held load while it waits (DESIGN CHOICE, log
entry 97). -/
def State.queueGating (core : Nat) (s : State) : State :=
  let d := s.die (dieOf core)
  if d.releases.any fun r => r.core = core && r.kind = .gating then s
  else s.mapDie (dieOf core) fun d => { d with releases := d.releases ++ [⟨core, 300, .gating, 0⟩] }

/-- A queued gating is withdrawn (R368). -/
def State.cancelGating (core : Nat) (s : State) : State :=
  s.mapDie (dieOf core) fun d => { d with releases := d.releases.filter fun r => !(r.core = core && r.kind = .gating) }

/-- An idle core that has been in hold for 40,000 station ticks is to be gated (R368). -/
def State.gateIfDue (core : Nat) (s : State) : State :=
  match (s.coreOf core).power.gate, (s.coreOf core).cont with
  | .hold since, none => if since + 40000 ≤ s.tick then s.queueGating core else s
  | _, _ => s

/-- CORE_GATE: after 40,000 station ticks in hold (R368). -/
def execCoreGate (core : Nat) (s : State) : Host.Outcome State Fault Refusal :=
  .next (if coreCount ≤ core then s else
    s.gateIfDue core)

/-- The next wake of a cluster's arbiter starts its slot no earlier than now (R368). -/
def State.startSlot (k : Nat) (s : State) : State :=
  match (s.cluster k).wakes with
  | [] => s
  | c :: _ => s.updCore c fun x =>
      match x.power.gate with
      | .waiting r => { x with power := { x.power with gate := .waiting (max r s.tick) } }
      | _ => x

/-- CORE_WAKE_READY (R368): the first waiting core of the cluster ends its slot of 2,000 station ticks; 2,000 later it is
ready, in hold. -/
def State.wakeReady (core : Nat) (s : State) : State :=
  match (s.coreOf core).power.gate with
  | .waiting r =>
    if (s.cluster (core / 12)).wakes.head? = some core ∧ r + 2000 ≤ s.tick then
      ((s.mapCluster (core / 12) fun cl => { cl with wakes := cl.wakes.tail }).updCore core fun c =>
        { c with power := { c.power with gate := .restarting (s.tick + 2000) } }).startSlot (core / 12)
    else s
  | .restarting r =>
    if r ≤ s.tick then s.updCore core fun c => { c with power := { c.power with gate := .hold s.tick } } else s
  | _ => s

/-- CORE_WAKE_READY (R368). -/
def execCoreWakeReady (core : Nat) (s : State) : Host.Outcome State Fault Refusal :=
  .next (if core < coreCount then s.wakeReady core else s)

/-- A bound core that is not pinned and whose qv has been empty for 1,000 core cycles releases its lane load and mode
cost (R361). -/
def State.goQuiet (core : Nat) (s : State) : State :=
  let c := s.coreOf core
  let load := laneCharge * (c.power.powered - 1) + c.power.modeCharge
  if c.cont.isSome ∧ !s.corePinned core ∧ 1000 ≤ c.power.qvIdle ∧ c.power.quietLoad = 0 ∧ load ≠ 0 then
    (s.releaseLoad core load .quiet).updCore core fun c => { c with power := { c.power with quietLoad := load } }
  else s

/-- CORE_QUIET (R361). -/
def execCoreQuiet (core : Nat) (s : State) : Host.Outcome State Fault Refusal :=
  .next (if core < coreCount then s.goQuiet core else s)

/-- A held load is released where no dispatch or restore has reached the core within 4,000 station ticks of its save (R341). -/
def State.expireHeld (core : Nat) (s : State) : State :=
  match (s.coreOf core).power.heldSince, (s.coreOf core).cont with
  | some t, none => if t + 4000 ≤ s.tick then s.releaseHeld core else s
  | _, _ => s

/-- HELD_LOAD_RELEASE (R341). -/
def execHeldLoadRelease (core : Nat) (s : State) : Host.Outcome State Fault Refusal :=
  .next (if core < coreCount then s.expireHeld core else s)

/-! ### The station tick -/

/-- The core cycles that one station tick brings at a level, on top of a part left over (R14, R64): 15 + L in 25. -/
def cyclesOf (part level : Nat) : Nat := (part + 15 + level) / 25

/-- A core's time goes on by one station tick (R64, R361, R363), unless it is gated. The cycles of a core in its wake count from
the wake's request on: R64 stops them while it is gated, and R368 does not say when its clock starts again (DESIGN CHOICE, log
entry 98). -/
def Core.elapse (level : Nat) (c : Core) : Core :=
  if c.isGated then c else
  let n := cyclesOf c.cyclePart level
  { c with
    cyclePart := (c.cyclePart + 15 + level) % 25
    cycle := if bit c.csr.mcountinhibit 0 then c.cycle else c.cycle + BitVec.ofNat 64 n
    clock := c.clock + n
    issued := c.issued && n == 0
    power := { c.power with
      kballast := if c.power.held = 0 then c.power.kballast else c.power.kballast + BitVec.ofNat 64 n
      qvIdle := if c.cont.isSome && !c.inQv then c.power.qvIdle + n else 0 } }

/-- A core waits on a load that is still in ql (R367). -/
def Core.loadStalled (c : Core) : Bool :=
  c.stalled && (!c.vec.inFlight.isEmpty || c.mat.slots.toList.contains .fillingLoad)

/-- The three counts of a bound core's cluster grow by its core cycles (R367): one of them for an instruction that its control
thread issued; the others are stalls where it waits on a load that is still in ql. The model issues one instruction of one core at a
station tick, so the counts are those of its own time (log entry 61). -/
def State.countActive (c : Core) (s : State) : State :=
  if c.cont.isNone then s
  else s.mapCluster (c.id / 12) fun cl =>
    let n := cyclesOf c.cyclePart cl.level
    let issue := min n (num c.issued)
    { cl with
      active := cl.active + n
      issue := cl.issue + issue
      mstall := if c.loadStalled then cl.mstall + (n - issue) else cl.mstall }

/-- The core cycles of the core in focus in threaded mode (R256): in each the token may move the send that is due at its
position, and goes on to the next. -/
def State.threadCycles : Nat → State → State
  | 0, s => s
  | n + 1, s => (s.escapeMove.mapMt (ThreadsState.cycle s.lanes)).threadCycles n

/-- A core in threaded mode that runs, and whose micro-threads are not frozen, goes through its core cycles of a station tick
(R256). -/
def State.cycleThreads (before : Core) (s : State) : State :=
  if before.mat.mode = .threaded && !before.mt.frozen && !before.isGated && before.run != .halted then
    s.onCore before.id (State.threadCycles (cyclesOf before.cyclePart (s.cluster (before.id / 12)).level))
  else s

/-- An idle core whose load is all released enters hold (R362, R368). -/
def Core.settleBallast (now : Nat) (c : Core) : Core :=
  if c.power.gate = .ballast ∧ c.power.held = 0 ∧ c.cont.isNone then
    { c with power := { c.power with gate := .hold now } }
  else c

/-- A station tick has ended, and the next has come: a copy of a core that is not halted may have missed its promise (R314,
R317). -/
def Core.endTick (now : Nat) (c : Core) : Core :=
  if c.run = .halted then c else c.missPromises fun _ e => e.misses now

/-- The station tick at which a core that nothing has used since module reset is to be gated (R368). -/
def firstGating : Nat := 40000

/-- One station tick passes (R283, R314, R355): the waiting charges of the tick that ends are served, the copies that have missed
their promises are late, every core's time goes on, and each die's balances are refilled. The station clocks of two dies may
differ by up to 2 ticks (R3); the module here has one, so that the difference is always 0 (DESIGN CHOICE, log entry 1). -/
def State.stationTick (s : State) : State :=
  let s := (List.range 24).foldl (fun s d => s.serveDie d) s
  let s := if s.tick + 1 = firstGating then s.listCores (List.range coreCount) else s
  let before := s.cores
  let s := before.foldl (fun s c => s.countActive c) { s with tick := s.tick + 1 }
  let s := s.mapCores (Core.endTick s.tick)
  let s := s.mapCores fun c => c.elapse (s.cluster (c.id / 12)).level
  let s := before.foldl (fun s c => s.cycleThreads c) s
  let s := (List.range 24).foldl (fun s d => s.refillDie d) s
  let s := if s.tick % scrubPeriod = 0 then s.scrubAll else s
  s.mapCores (Core.settleBallast s.tick)

/-- TOKEN_REFILL (R355). -/
def execTokenRefill (s : State) : Host.Outcome State Fault Refusal := .next s.stationTick

/-! ### Telemetry -/

/-- The largest count of a ring entry (R367). -/
def ringMax : Nat := 2 ^ 18 - 1

/-- A cluster latches its ring entry (R367). -/
def State.latchRing (k : Nat) (s : State) : State :=
  s.mapCluster k fun c =>
    let e : RingEntry := ⟨min ringMax c.active, min ringMax c.mstall, min ringMax c.issue, c.level⟩
    { c with ring := (e :: c.ring).take 16, samples := c.samples + 1, active := 0, mstall := 0, issue := 0 }

/-- RING_LATCH: once for each multiple of 10,000 station ticks (R367). -/
def execRingLatch (cluster : Nat) (s : State) : Host.Outcome State Fault Refusal :=
  .next (if cluster < 192 ∧ (s.cluster cluster).samples < s.tick / 10000 then s.latchRing cluster else s)

/-- TELEMETRY_SAMPLE (R387). -/
def execTelemetrySample (s : State) : Host.Outcome State Fault Refusal :=
  .next { s with dev := { s.dev with telemetry := s.dev.telemetry + 1 } }

/-- HBM_LANE_LEND (R181): no access can observe it but through time. -/
def execHbmLaneLend (die channel : Nat) (s : State) : Host.Outcome State Fault Refusal :=
  .next (if die < 24 then s.mapDie die fun d => { d with lent := channel :: d.lent.erase channel } else s)

/-- HBM_LANE_RETURN (R181). -/
def execHbmLaneReturn (die channel : Nat) (s : State) : Host.Outcome State Fault Refusal :=
  .next (if die < 24 then s.mapDie die fun d => { d with lent := d.lent.erase channel } else s)

/-! ### Instructions -/

/-- The lowest rail target that a glide to level T with offset u passes through, that of level min(T, L + 1), lies below the
floor (R365, R371). -/
def State.belowFloor (s : State) (level target undervolt : Nat) : Bool :=
  decide (s.dev.dvfsTable[min target (level + 1)]?.getD 0 < railFloor + 5 * undervolt)

/-- The caller may change a cluster of its die (R371). -/
def State.mayClock (s : State) (c : Nat) : Bool :=
  s.core.priv != .user || s.region.any fun g => s.dedicated g && (s.clusterMask g).testBit c

/-- The request of an accepted pwreq starts, with forced 0 (R366; log entry 60): one for the level and the offset in force is no
listed event, and changes nothing (R8). -/
def State.startDvfs (k target undervolt : Nat) (s : State) : State :=
  let cl := s.cluster k
  if cl.level = target ∧ cl.undervolt = undervolt then s else
  let s := s.mapCluster k fun c => { c with target := target, undervolt := undervolt, forced := false, superseded := false }
  if cl.level ≠ target then s.glide k else s.moveRail k .voltAdj (s.railTarget target undervolt)

/-- pwreq (R371). -/
def execPwreq (rd rs1 rs2 : BitVec 5) : State → Host.Outcome State Fault Refusal :=
  retiring do
    let s ← get
    let r := s.x rs1
    let c := if rs2 = 0 then clusterOf s.core.id else (s.x rs2).toNat
    require (decide (r.toNat < 512) && decide (c ≤ 7))
    let k := 8 * dieOf s.core.id + c
    let cl := s.cluster k
    let t := field r 0 4
    let u := field r 4 5
    let st := if !s.mayClock c then 4
      else if cl.dvfs ≠ .idle then 3
      else if cl.maxlvl < t then 2
      else if s.belowFloor cl.level t u then 1
      else 0
    modify (State.mapCluster k fun c => { c with lastStatus := st })
    if st = 0 then modify (State.startDvfs k t u)
    putX rd (BitVec.ofNat 64 st)

/-- The code of a DVFS state (R372). -/
def DvfsState.code : DvfsState → Nat
  | .idle => 0
  | .charging => 1
  | .voltUp => 2
  | .freqUp => 3
  | .releasing => 4
  | .freqDown => 5
  | .voltDown => 6
  | .voltAdj => 7

/-- Item 0 of `pwstat` (R372). -/
def Cluster.word (c : Cluster) : Nat :=
  c.dvfs.code + c.level * 2 ^ 3 + c.target * 2 ^ 7 + c.maxlvl * 2 ^ 11 + num c.forced * 2 ^ 15 + c.rail * 2 ^ 16 +
    c.lastStatus * 2 ^ 28

/-- Entry i of a ring (R367, R372): zero where nothing has been latched. -/
def Cluster.ringEntry (c : Cluster) (i : Nat) : Nat :=
  match c.ring[(c.samples + 15 - i % 16) % 16]? with
  | some e => e.active + e.mstall * 2 ^ 18 + e.issue * 2 ^ 36 + e.level * 2 ^ 54
  | none => 0

/-- The value of an item of `pwstat` other than item 1 (R372); `k` is the cluster that x[rs1] names. -/
def State.powerItem (s : State) (item k : Nat) (x : Word) : Nat :=
  let own := s.cluster (s.core.id / 12)
  let d := s.die (dieOf s.core.id)
  match item with
  | 0 => (s.cluster k).word
  | 2 => own.ringEntry x.toNat
  | 3 => own.samples
  | 4 => d.bUp
  | 5 => d.bDn
  | _ => d.charges.length

/-- A read of a cluster's FIFO mark (R365, R372): how full the FIFO has become since the last read, and how full it is now,
are free values up to 64 (log entry 15); the mark never falls but to the occupancy of the moment. -/
def State.readMark (k : Nat) (s : State) : Nat × State :=
  let (v, s) := s.draw
  let mark := max (s.cluster k).fifoMark (v % 65)
  let (w, s) := s.draw
  (mark, s.mapCluster k fun c => { c with fifoMark := w % (mark + 1) })

/-- pwstat (R372). -/
def execPwstat (rd rs1 : BitVec 5) (item : BitVec 10) : State → Host.Outcome State Fault Refusal :=
  retiring do
    let s ← get
    let x := s.x rs1
    let c := if x = BitVec.allOnes 64 then clusterOf s.core.id else x.toNat
    require (decide (item.toNat ≤ 6) && (decide (2 ≤ item.toNat) || decide (c ≤ 7)))
    if item = 1 then
      let (v, s') := s.readMark (8 * dieOf s.core.id + c)
      set s'
      putX rd (BitVec.ofNat 64 v)
    else putX rd (BitVec.ofNat 64 (s.powerItem item.toNat (8 * dieOf s.core.id + c) x))

/-- The wait of `pwpin` for its amount (R357, R373), which the first execution fixes while the instruction waits. -/
def awaitPin (a : Nat) : Exec Unit := do
  let s ← get
  let core := s.core.id
  let die := s.die (dieOf core)
  if s.core.power.paid then
    modify (State.mapCore fun k => { k with power := { k.power with paid := false, pin := none } })
  else if a = 0 then
    modify fun s => (s.withdrawCharge (dieOf core) (.pin core)).mapCore fun k => { k with power := { k.power with pin := none } }
  else if die.charges.isEmpty && decide (a ≤ die.bUp) then
    modify fun s => (s.payUp (dieOf core) s.region a).mapCore fun k =>
      { k with power := { k.power.hold a with pin := none } }
  else
    if !(die.charges.any fun q => q.payer = .pin core) then
      modify (State.mapDie (dieOf core) fun d => { d with charges := d.charges ++ [⟨.pin core, a, s.region⟩] })
    modify (State.mapCore fun k => { k with power := { k.power with pin := some a } })
    throw .wait

/-- pwpin (R373). -/
def execPwpin (rd rs1 : BitVec 5) : State → Host.Outcome State Fault Refusal :=
  retiring do
    let s ← get
    let a := s.x rs1
    if a = BitVec.allOnes 64 then
      modify (State.releaseHeld s.core.id)
      putX rd 0
    else
      awaitPin (s.core.power.pin.getD (min a.toNat (heldMax - s.core.power.held)))
      putX rd (BitVec.ofNat 64 (← get).core.power.held)

/-- pwgrant (R374). -/
def execPwgrant (rd rs1 : BitVec 5) : State → Host.Outcome State Fault Refusal :=
  retiring do
    let s ← get
    let v := s.x rs1
    let keep := v = BitVec.allOnes 64
    require (keep || decide (v.toNat ≤ 128))
    if !keep then
      modify (State.mapCore fun c => { c with power := { c.power with vol := if v = 0 then 128 else v.toNat } })
    let t ← get
    putX rd (BitVec.ofNat 64 (t.offerField t.core.id))

/-- The station tick by which a waking core is ready (R368): the arbiter's notice, the wakes ahead, its slot and its
restart. -/
def State.readyBy (s : State) (core : Nat) : Nat :=
  match (s.coreOf core).power.gate with
  | .restarting r => r
  | .waiting _ => s.tick + 4000 + ((s.cluster (core / 12)).wakes.idxOf core + 1) * 2000 + 2000
  | _ => s.tick

/-- The state that `pwslot` reports (R375). -/
def Core.slotCode (c : Core) : Nat :=
  if c.cont.isSome then 0
  else match c.power.gate with
    | .active | .ballast => 1
    | .hold _ => 2
    | .waiting _ | .restarting _ => 3
    | .gated => 4

/-- The wake of `pwslot` (R368, R375). -/
def State.wakeSlot (core : Nat) (s : State) : State :=
  match (s.coreOf core).power.gate with
  | .gated => s.requestWake core
  | .hold _ => (s.cancelGating core).updCore core fun c => { c with power := { c.power with gate := .hold s.tick } }
  | _ => s

/-- pwslot (R375): supervisor and machine mode only (R370). -/
def execPwslot (rd rs1 rs2 : BitVec 5) : State → Host.Outcome State Fault Refusal :=
  retiring do
    let s ← get
    let k := (s.x rs1).toNat
    let op := (s.x rs2).toNat
    require (s.core.priv != .user && decide (k ≤ 95) && decide (op ≤ 2))
    let core := 96 * dieOf s.core.id + k
    let code := (s.coreOf core).slotCode
    match op with
    | 0 =>
      if code = 0 then putX rd (status (-1))
      else
        modify (State.wakeSlot core)
        putX rd (BitVec.ofNat 64 ((← get).readyBy core))
    | 1 =>
      if code = 2 then
        modify (State.queueGating core)
        putX rd 0
      else putX rd (status (-1))
    | _ => putX rd (BitVec.ofNat 64 code)

end Sys2Proof.Machine
end

