-- ==== Sys2Proof/Machine/Device.lean ====
section
/-! DEFINITION. Reliability, bring-up and the host (16_device_service R376 to R387), module reset (00_scope R5), and the
events that reach the module from the host, from a peer and from its controllers. -/

namespace Sys2Proof.Machine

/-! ### Accesses from outside -/

/-- A device address the host or a peer may name: HBM or scratchpad that exists (R176). -/
def State.deviceAddress (s : State) (pa : Nat) : Bool := !isHost pa && s.legal pa

/-- The lines of an access from outside, which acts with hint normal for no region (R179). -/
def State.outsideTouch (pa n : Nat) (write : Bool) (s : State) : State :=
  (List.range ((pa % 128 + n + 127) / 128)).foldl
    (fun s i => s.touchFor none ((pa / 128 + i) * 128) .normal write) s

/-- An untagged write from outside the module (R282, R289, R292); sectors it writes whole lose their poison (R376). -/
def State.outsideWrite (pa : Nat) (bytes : List Byte) (s : State) : State :=
  let s := s.outsideTouch pa bytes.length true
  let s := (bytes.zip (List.range bytes.length)).foldl (fun s b => s.deviceWrite (pa + b.2) 1 b.1.toNat) s
  s.healSectors (wholeSectors pa bytes.length)

/-- An untagged read from outside: the bytes, and whether one lies in a poisoned sector (R376); a discarded page gives the zeros of
its lines (R189). -/
def State.outsideRead (s : State) (pa n : Nat) : List Byte × Bool :=
  ((List.range n).map fun i => s.mem.bytes.get (canonical (pa + i)), (List.range n).any fun i => s.spoiled ⟨pa + i, none⟩)

/-- What the requester receives. -/
def State.complete (c : Option (List Byte × Bool)) (s : State) : State := { s with dev := { s.dev with completion := c } }

/-- HOST_WRITE (R289): a posted write to device memory. -/
def execHostWrite (addr : Nat) (bytes : List (BitVec 8)) (s : State) : Host.Outcome State Fault Refusal :=
  .next (if s.deviceAddress addr && s.deviceAddress (addr + bytes.length - 1) then s.outsideWrite addr bytes else s)

/-- HOST_READ (R376): a read of device memory. -/
def execHostRead (addr len : Nat) (s : State) : Host.Outcome State Fault Refusal :=
  .next (if s.deviceAddress addr && s.deviceAddress (addr + len - 1) then
    (s.outsideTouch addr len false).complete (some (s.outsideRead addr len)) else s)

/-- What a PCIe AtomicOp of `n` bytes leaves: 0 FetchAdd, 1 Swap, 2 compare and swap (R290). -/
def hostAtomic (op n old operand compare : Nat) : Nat :=
  match op with
  | 0 => (old + operand) % 2 ^ (8 * n)
  | 1 => operand
  | _ => if old = compare % 2 ^ (8 * n) then operand else old

/-- A PCIe AtomicOp of `n` bytes writes: a compare and swap only where it finds what it compares (R282, R290). -/
def hostAtomicWrites (op n old compare : Nat) : Bool := op < 2 || old == compare % 2 ^ (8 * n)

/-- HOST_ATOMICOP (R290): the three operations at 32 and 64 bits, executed at the home bank; on a poisoned sector nothing is
written, and the completion is poisoned (R376). -/
def execHostAtomicop (addr op width : Nat) (operand compare : BitVec 64) (s : State) : Host.Outcome State Fault Refusal :=
  let n := width / 8
  .next (
    if 2 < op || (width ≠ 32 && width ≠ 64) || addr % n ≠ 0 || !s.deviceAddress addr then s
    else
      let old := s.outsideRead addr n
      let writes := !old.2 && hostAtomicWrites op n (leValue old.1) compare.toNat
      let s' := (s.outsideTouch addr n writes).complete (some old)
      if !writes then s'
      else s'.deviceWrite addr n (hostAtomic op n (leValue old.1) operand.toNat compare.toNat))

/-- ATS_INVALIDATION (R384): the translations of a range of host addresses go, under every PASID, since the event names none
(DESIGN CHOICE, log entry 67). Every access that used one has been performed
as it was issued (log entry 18). -/
def execAtsInvalidation (addr len : Nat) (s : State) : Host.Outcome State Fault Refusal :=
  .next { s with dev := { s.dev with ats := s.dev.ats.filter fun p => !(addr < 4096 * (p.2 + 1) && 4096 * p.2 < addr + len) } }

/-! ### Junction ports -/

/-- A port with one change. -/
def State.mapPort (p : Nat) (f : Port → Port) (s : State) : State :=
  { s with dev := { s.dev with ports := s.dev.ports.setIfInBounds p (f (s.dev.ports[p]?.getD ⟨false, false, []⟩)) } }

/-- An offset range that the controller accepts on a port in service (R320, R386). -/
def State.accepted (s : State) (port offset n : Nat) : Bool :=
  offset + n ≤ 3 * 2 ^ 40 &&
    s.dev.ports[port]?.any fun p => p.inService && (p.ranges.take 16).any fun r => r.1 ≤ offset && offset + n ≤ r.1 + r.2

/-- JUNCTION_PORT_REQUEST (R320, R386): a peer's put or get on this module's spread memory; a refused get has no
completion. -/
def execJunctionPortRequest (port : Nat) (put : Bool) (offset : Nat) (bytes : List (BitVec 8)) (s : State) :
    Host.Outcome State Fault Refusal :=
  .next (
    if !s.accepted port offset bytes.length then (if put then s else s.complete none)
    else if put then s.outsideWrite (2 ^ 48 + offset) bytes
    else (s.outsideTouch (2 ^ 48 + offset) bytes.length false).complete
      (some (s.outsideRead (2 ^ 48 + offset) bytes.length)))

/-- A copy that is on a port when that goes down (R386): accepted and not yet final. -/
def CopyEntry.onPort (p : Nat) (e : CopyEntry) : Bool := e.kind != .local && e.port == p && e.inEngine

/-- The copies of the core in focus that are on a port fail (R318, R386), unless a fatal error has stopped the core (R380); one
whose generation advanced too lately is lost, and fails once it may (R311). -/
def State.failPort (p : Nat) (s : State) : State :=
  if s.core.run = .halted then s
  else (entryNumbers.filter fun n => (s.core.copy n).onPort p).foldl (fun s n =>
    (s.mapCopy n fun e => { e with lost := true }).failLost n) s

/-- JUNCTION_PORT_DOWN (R386): logged with SOURCE 8 by die 0's logger (log entry 23). -/
def execJunctionPortDown (port : Nat) (s : State) : Host.Outcome State Fault Refusal :=
  .next (if 18 ≤ port then s else
    let s := s.mapPort port fun p => { p with inService := false, down := true }
    let s := (s.cores.map (·.id)).foldl (fun s c => s.onCore c (State.failPort port)) s
    s.countEvent 0 8 port 0)

/-- PORT_RETRAIN (R386): a port that went down is retrained, and in full service it returns to service (R383). -/
def execPortRetrain (port : Nat) (s : State) : Host.Outcome State Fault Refusal :=
  .next (s.mapPort port fun p => { p with down := false, inService := s.dev.service == .full })

/-- MAROM_FAILOVER (R387): the standby controller takes over; records and tables stay. The failure of the second controller is
fatal (R380). The entry has UNIT 0 (DESIGN CHOICE, log entry 23). -/
def execMaromFailover (s : State) : Host.Outcome State Fault Refusal :=
  .next (if s.dev.marom then s.fatal .controllers
    else State.countEvent 0 9 0 0 { s with dev := { s.dev with marom := true } })

/-! ### Errors of the stores -/

/-- The counter of an error counts lanes apart only for a lane slice (R376). -/
def counterLane (source lane : Nat) : Nat := if source = 1 then lane else 0

/-- A source that R378 names for a store, with a unit of that die: where the address is that of a line, it lies in the slice, or
in the HBM channel, that the unit names (R178). -/
def errorUnit (die source unit addr : Nat) : Bool :=
  die < 24 && match source with
    | 5 => (unit / 32 / 2 == die || unit / 32 < 2) && (!isHbm addr ||
        (canonical addr / 2 ^ 37 == die && unit / 32 % 2 == hbmStack addr && unit % 32 == hbmChannel addr))
    | 3 => unit < coreCount && dieOf unit == die && (!(isHbm addr || window addr == 3) || homeSlice addr == unit)
    | 1 | 2 | 4 | 6 => unit < coreCount && dieOf unit == die
    | _ => false

/-- An error is counted and logged (R376, R378, R379). -/
def State.logStoreError (die source unit addr lane sev : Nat) (corrected : Bool) (s : State) : State :=
  let s := s.mapDie die fun d => d.count corrected source unit (counterLane source lane)
  s.logEvent die ⟨source, sev, unit, if source = 1 then lane else 0xFFFF, addr,
    (s.die die).counter source unit (counterLane source lane)⟩

/-- A lane is marked pending retirement, and cause 52 is raised once for it (R377). -/
def Core.retireLane (lane : Nat) (error : Word) (c : Core) : Core :=
  if c.reported.getLsbD lane then c
  else { c with
    pendingRetire := c.pendingRetire ||| 1#128 <<< lane
    reported := c.reported ||| 1#128 <<< lane
    storageErrors := c.storageErrors ++ [error] }

/-- The corrected errors of a lane within the window, this one included (R377). -/
def Core.recentErrors (now lane : Nat) (c : Core) : List (Nat × Nat) :=
  (now, lane) :: c.laneErrors.filter fun e => now < e.1 + 2 ^ 30

/-- CORRECTED_ERROR (R376 to R379): an error that brings a lane slice to its threshold is logged as that. -/
def execCorrectedError (die : Nat) (source : BitVec 8) (unit : BitVec 16) (addr : BitVec 64) (lane : BitVec 16)
    (s : State) : Host.Outcome State Fault Refusal :=
  let src := source.toNat
  let u := unit.toNat
  let l := lane.toNat
  .next (
    if !errorUnit die src u addr.toNat || (src == 1 && 127 < l) then s
    else if src = 1 then
      let recent := (s.coreOf u).recentErrors s.tick l
      let reached := s.dev.threshold ≤ (recent.filter fun e => e.2 = l).length && !(s.coreOf u).reported.getLsbD l
      let s := s.updCore u fun c => { c with laneErrors := recent }
      let s := if reached then s.updCore u (Core.retireLane l (BitVec.ofNat 64 l)) else s
      s.logStoreError die src u addr.toNat l (if reached then 2 else 0) true
    else s.logStoreError die src u addr.toNat l 0 true)

/-- A sector becomes poisoned (R376). -/
def MemState.spoil (pa : Nat) (m : MemState) : MemState :=
  let k := canonical pa / 32
  { m with poison := if m.poison.contains k then m.poison else k :: m.poison }

/-- A line leaves a core's caches (R376). -/
def Core.dropCached (pa : Nat) (c : Core) : Core :=
  { c.dropData pa with icache := c.icache.filter fun l => l.line ≠ pa / 128 }

/-- UNCORRECTABLE_ERROR (R376): by the store it arose in. -/
def execUncorrectableError (die : Nat) (source : BitVec 8) (unit : BitVec 16) (addr : BitVec 64) (lane : BitVec 16)
    (s : State) : Host.Outcome State Fault Refusal :=
  let src := source.toNat
  let u := unit.toNat
  let l := lane.toNat
  let log (sev : Nat) (corrected : Bool) (s : State) : State := s.logStoreError die src u addr.toNat l sev corrected
  .next (
    if !errorUnit die src u addr.toNat || (src == 1 && 127 < l) then s
    else match src with
      | 1 => log 1 false (s.updCore u (Core.retireLane l (BitVec.ofNat 64 (128 + l))))
      | 2 => log 1 false (s.updCore u fun c => { c with storageErrors := c.storageErrors ++ [0x180#64] })
      | 4 => log 0 true (s.updCore u (Core.dropCached addr.toNat))
      | 6 => log 1 false (s.updCore u fun c => { c with siding := { c.siding with bad := true } })
      | _ => log 1 false (s.mapMem (MemState.spoil addr.toNat)))

/-! ### Fatal errors, module reset and boot -/

/-- FATAL_ERROR (R380): an error that is fatal is reported to the active controller. -/
def execFatalError (die : Nat) (source : BitVec 8) (unit : BitVec 16) (addr : BitVec 64) (s : State) :
    Host.Outcome State Fault Refusal :=
  .next (s.fatal (.reported die source unit addr))

/-- A core after a later module reset: its retired lanes stay out of service, and the registers whose reset value the lane map
gives follow it (R19, R101, R231). -/
def Core.resetKeeping (c : Core) : Core :=
  let map := c.vec.laneMap
  { Core.reset c.id with
    vec := { VecState.reset with laneMap := map, kvlmax := BitVec.ofNat 17 (vlmaxOf map 32 8) }
    mat := { MatState.reset with predRows := BitVec.ofNat 8 (kmrowsOf map) } }

/-- Module reset (R5): every field takes its Reset value, except that no lane that was retired returns (R19). The bytes of
memory, the poison of its sectors and the pages whose leaves say that they are discarded are no fields, and the fuses, the
host's assignments and answers and the schedule of inputs lie outside the reset (log entry 3). -/
def State.moduleReset (s : State) : State :=
  { State.reset with
    core := (s.coreOf 0).resetKeeping
    others := (s.cores.filter fun c => c.id ≠ 0 && c.vec.laneMap != BitVec.allOnes 128).map Core.resetKeeping
    mem := { State.reset.mem with bytes := s.mem.bytes, poison := s.mem.poison, discards := s.mem.discards }
    dev := { DeviceState.reset with revoked := s.dev.revoked, pasids := s.dev.pasids, denied := s.dev.denied }
    inputs := s.inputs
    free := s.free }

/-- MODULE_RESET (R5). -/
def execModuleReset (s : State) : Host.Outcome State Fault Refusal := .next s.moduleReset

/-- A write of GO (R381): ignored while STATE is not AwaitImage or Refused. -/
def State.go (s : State) : State :=
  if s.dev.service = .awaitImage ∨ s.dev.service = .refused then
    { s with dev := { s.dev with service := .verifying, reason := 0 } }
  else s

/-- GO (R381). -/
def execGo (_word : BitVec 32) (s : State) : Host.Outcome State Fault Refusal := .next s.go

/-- A field of the image in host memory. -/
def State.imageField (s : State) (off n : Nat) : Nat := s.mem.bytes.read (hostPa (s.dev.imgaddr.toNat + off)) n

/-- Bytes of the image in host memory. -/
def State.imageBytes (s : State) (off n : Nat) : List Byte := s.mem.bytes.readBytes (hostPa (s.dev.imgaddr.toNat + off)) n

/-- Some page of the image, which is read under PASID 0, is refused by the host, so its fetch fails (R382, R384; log entry
67). -/
def State.imageRefused (s : State) : Bool :=
  let a := s.dev.imgaddr.toNat % 2 ^ 48
  s.dev.denied.any fun p => p.1 == 0 && decide (a < 4096 * (p.2 + 1)) && decide (4096 * p.2 < a + max 128 s.dev.imglen.toNat)

/-- The header is well formed (R381), and its length is the one the host gave. -/
def State.imageHeader (s : State) : Bool :=
  let n := s.imageField 8 8
  s.imageField 0 4 == 0x4B5A4657 && 128 ≤ n && n ≤ 2 ^ 28 && n == s.dev.imglen.toNat && s.imageField 16 1 ≤ 3 &&
    s.imageField 17 47 == 0

/-- The digest the boot ROM forms (R381); the body ends where the image does, by its header or by IMGLEN. -/
def State.imageDigest (s : State) : List Byte :=
  sha512 (s.imageBytes 0 64 ++ s.imageBytes 128 (min (s.imageField 8 8) s.dev.imglen.toNat - 128))

/-- The verdict on the image: 0, or the reason code (R381, R382). -/
def State.imageReason (s : State) : Nat :=
  let slot := s.imageField 16 1
  if s.imageRefused then 4
  else if !s.imageHeader then 1
  else if s.dev.revoked.contains slot then 2
  else if !edVerify (Config.fuseKey slot).toNat s.imageDigest (s.imageBytes 64 64) then 3
  else 0

/-- The length kept for an attestation report, whose layout the spec does not give (log entry 15). -/
def reportBytes : Nat := 256

/-- The attestation report (R381): what it holds, and its bytes at REPORT, which are free values, the signature among them. -/
def State.attest (s : State) : State :=
  let (bytes, t) := s.freeBytes reportBytes
  let t := t.putHost s.dev.report.toNat bytes
  { t with dev := { t.dev with attested := some ⟨"GW-LX24-A", s.imageField 16 1, s.imageDigest, s.dev.nonce⟩ } }

/-- BOOT_VERIFY (R381): the image is refused with its reason, or accepted and the dies train; the report follows, unless the
image could not be fetched (log entry 54). -/
def execBootVerify (s : State) : Host.Outcome State Fault Refusal :=
  .next (if s.dev.service ≠ .verifying then s else
    let r := s.imageReason
    let t := if r = 4 then s else s.attest
    { t with dev := { t.dev with service := if r = 0 then .training else .refused, reason := BitVec.ofNat 8 r } })

/-- The fields of the root's RCB that firmware does not leave zero (R69, R410): offset, width and value. -/
def rootFields : List (Nat × Nat × Nat) :=
  [(5, 1, 15), (6, 1, 64), (7, 1, 1), (8, 2, 2), (12, 4, 0x7FF), (16, 4, 2304), (20, 4, 2304), (24, 4, 0xFFFFFF),
    (28, 2, 0xFFF), (31, 1, 255), (32, 12, 2 ^ 96 - 1), (44, 2, 1024)]

/-- Firmware creates the root's RCB before the first continuation is dispatched (R410): the model has it do so as service
begins, and where it places the region table (log entry 75). -/
def State.createRoot (s : State) : State :=
  let zeroed := (s.deviceWords (s.rcb 0) (List.replicate 32 0)).setQueue 0 []
  rootFields.foldl (fun s f => s.putRcb 0 f.1 f.2.1 f.2.2) zeroed

/-- MAXLVL 0 for every cluster: each of them that is above level 0 begins its forced fall, every level of which waits for its release
(R355, R366, R383), and a change of the limit record makes interrupt 18 pending (R359). -/
def State.limitAll (s : State) : State :=
  ((List.range 192).foldl (fun s k => s.limitLevel k 0) s).mapCores fun c => c.pendIfEnabled 18

/-- Maquette service begins: MAXLVL is 0 in every cluster, which holds it at level 0 once its fall is done (log entry 55), and
every port is out of service (R383). -/
def State.beginMaquette (s : State) : State :=
  let s := ((s.listCores (List.range coreCount)).createRoot).limitAll
  { s with dev := { s.dev with service := .maquette, ports := s.dev.ports.map fun p => { p with inService := false } } }

/-- Full service begins: the restrictions lift, continuations go on, and every port but one that has gone down and is not yet
retrained is in service (R383, R386). -/
def State.beginFull (s : State) : State :=
  let s := if s.dev.service = .training then s.createRoot else s
  { s with
    dies := s.dies.map fun d => { d with clusters := d.clusters.map fun c => { c with maxlvl := 15 } }
    dev := { s.dev with service := .full, ports := s.dev.ports.map fun p => { p with inService := !p.down } } }

/-- Dies have passed their training (R382, R383): they show in DIESOK; full service begins when it is all ones, and maquette
service once it holds die 0's bit. -/
def State.trained (diesok : BitVec 24) (s : State) : State :=
  let s := { s with dev := { s.dev with diesok := s.dev.diesok ||| diesok } }
  if s.dev.diesok = BitVec.allOnes 24 then s.beginFull
  else if s.dev.service = .training ∧ s.dev.diesok.getLsbD 0 then s.beginMaquette
  else s

/-- MAQUETTE_SERVICE (R382, R383): dies have passed their training. -/
def execMaquetteService (diesok : BitVec 24) (s : State) : Host.Outcome State Fault Refusal :=
  .next (if s.dev.service = .training ∨ s.dev.service = .maquette then s.trained diesok else s)

/-- FULL_SERVICE (R383): when DIESOK is all ones. -/
def execFullService (diesok : BitVec 24) (s : State) : Host.Outcome State Fault Refusal :=
  .next (if (s.dev.service = .training ∨ s.dev.service = .maquette) ∧ diesok = BitVec.allOnes 24 then s.trained diesok else s)

/-! ### BAR0 -/

/-- CNTVAL: the counter that CNTSEL selects (R376, R382). -/
def State.cntval (s : State) : Nat :=
  let src := field s.dev.cntsel 12 4
  let unit := field s.dev.cntsel 0 12
  let lane := if src = 1 then field s.dev.cntsel 16 7 else 0
  maxOf ((List.range 24).map fun d => (s.die d).counter src unit lane)

/-- A read of a register of the physical function's BAR0 (R4, R382). -/
def State.bar0Read (s : State) (offset : Nat) : Word :=
  match offset with
  | 0x000 => s.dev.mstatus
  | 0x008 => s.dev.imgaddr
  | 0x010 => s.dev.imglen
  | 0x018 => s.dev.nonce.extractLsb' 0 64
  | 0x020 => s.dev.nonce.extractLsb' 64 64
  | 0x028 => s.dev.nonce.extractLsb' 128 64
  | 0x030 => s.dev.nonce.extractLsb' 192 64
  | 0x040 => s.dev.castaddr
  | 0x048 => s.dev.castlen
  | 0x050 => s.dev.report
  | 0x058 => s.dev.cntsel
  | 0x060 => BitVec.ofNat 64 s.cntval
  | _ => 0

/-- One of the four words of NONCE replaced. -/
def setNonce (i : Nat) (v : Word) (n : BitVec 256) : BitVec 256 :=
  (n &&& ~~~((BitVec.allOnes 64).setWidth 256 <<< (64 * i))) ||| (v.setWidth 256 <<< (64 * i))

/-- A write of a register of the physical function's BAR0, by its access code (R4, R5, R382). The two host ports share one set
of these registers, and GO names no port (DESIGN CHOICE, log entry 68). -/
def State.bar0Write (offset : Nat) (v : Word) (s : State) : State :=
  let put (f : DeviceState → DeviceState) : State := { s with dev := f s.dev }
  match offset with
  | 0x008 => put fun d => { d with imgaddr := v }
  | 0x010 => put fun d => { d with imglen := v }
  | 0x018 => put fun d => { d with nonce := setNonce 0 v d.nonce }
  | 0x020 => put fun d => { d with nonce := setNonce 1 v d.nonce }
  | 0x028 => put fun d => { d with nonce := setNonce 2 v d.nonce }
  | 0x030 => put fun d => { d with nonce := setNonce 3 v d.nonce }
  | 0x038 => s.go
  | 0x040 => put fun d => { d with castaddr := v }
  | 0x048 => put fun d => { d with castlen := v }
  | 0x050 => put fun d => { d with report := v }
  | 0x058 => put fun d => { d with cntsel := v }
  | _ => s

/-! ### Launch queues -/

/-- A virtual function's queue with one change. -/
def State.mapVf (f : Nat) (g : LaunchQueue → LaunchQueue) (s : State) : State :=
  match s.dev.vfs[f]? with
  | some q => { s with dev := { s.dev with vfs := s.dev.vfs.setIfInBounds f (g q) } }
  | none => s

/-- QLOG is 4 to 16 (R385). -/
def LaunchQueue.legal (q : LaunchQueue) : Bool := 4 ≤ q.qlog.toNat && q.qlog.toNat ≤ 16

/-- How many packets TAIL is ahead of HEAD; both counts run freely in 64 bits (R385). -/
def LaunchQueue.ahead (q : LaunchQueue) : Nat := (q.tail + 2 ^ 64 - q.head % 2 ^ 64) % 2 ^ 64

/-- The queue goes on: QLOG is 4 to 16, and TAIL is not too far ahead (R385). -/
def LaunchQueue.goes (q : LaunchQueue) : Bool := q.legal && decide (q.ahead ≤ 2 ^ q.qlog.toNat)

/-- A write of the doorbell TAIL (R385): a bad QLOG, or a TAIL too far ahead, stops the queue. -/
def State.ring (f : Nat) (tail : Word) (s : State) : State :=
  s.mapVf f fun q =>
    let q := { q with tail := tail.toNat }
    if q.stopped then q
    else { q with stopped := !q.goes }

/-- TAIL (R385). -/
def execTail (vf : Nat) (value : BitVec 64) (s : State) : Host.Outcome State Fault Refusal := .next (s.ring vf value)

/-- A read of a register of a virtual function's BAR0 (R4, R385). -/
def LaunchQueue.read (q : LaunchQueue) (offset : Nat) : Word :=
  match offset with
  | 0x00 => q.qbase
  | 0x08 => q.qlog
  | 0x18 => BitVec.ofNat 64 q.head
  | 0x20 => BitVec.ofNat 64 (q.qerrIndex.toNat + (if q.stopped then 2 ^ 32 else 0))
  | _ => 0

/-- A write of a register of a virtual function's BAR0, by its access code (R4, R385). -/
def State.vfWrite (f offset : Nat) (v : Word) (s : State) : State :=
  match offset with
  | 0x00 => s.mapVf f fun q => { q with qbase := v }
  | 0x08 => s.mapVf f fun q => { q with qlog := v }
  | 0x10 => s.ring f v
  | _ => s

/-- REGISTER_WRITE (R4): function 0 is the physical function, and function f + 1 is virtual function f. A write names no port,
since the two ports share one set of registers (DESIGN CHOICE, log entry 68). -/
def execRegisterWrite (function offset : Nat) (value : BitVec 64) (s : State) : Host.Outcome State Fault Refusal :=
  .next (match function with
    | 0 => s.bar0Write offset value
    | f + 1 => s.vfWrite f offset value)

/-- Writes the striped record of a launch packet (R72, R385). -/
def State.writeLaunch (p entry frame succ total width region : Nat) (s : State) : State :=
  s.deviceWords p [entry, frame, succ, 0, total, 0, region * 2 ^ 32 + width % 256 * 2 ^ 48 + 2 ^ 56, 0]

/-- The next packet of a queue (R385): a striped record is written at RECORD and placed under the rules of `cspawn`. A queue whose
QLOG is bad, or was lowered below what TAIL is ahead, stops. A refused packet, and one whose page the host does not grant (R384; log entry 55), is recorded, a message is sent, and the
queue stops. -/
def State.launch (f : Nat) (s : State) : State :=
  match s.dev.vfs[f]? with
  | none => s
  | some q =>
    if q.stopped || q.ahead = 0 then s
    else if !q.goes then s.mapVf f fun q => { q with stopped := true }
    else
    let a := hostPa (q.qbase.toNat + 64 * (q.head % 2 ^ q.qlog.toNat))
    let page := (s.pasidOf (some q.region), a % 2 ^ 48 / 4096)
    let denied := s.dev.refuses page
    let s := if denied then s else s.useTranslation page
    let item (off n : Nat) : Nat := s.mem.bytes.read (a + off) n
    let record := BitVec.ofNat 64 (item 40 8)
    let p := s.recordPa q.region record
    let placed : State × Bool :=
      if denied || !s.pagePasses q.region record then (s, false)
      else
        let t := (s.reach q.region record true).writeLaunch p (item 0 8) (item 8 8) (item 24 8) (item 16 8) (item 32 1) q.region
        if t.recordStatus p (fun _ => true) ≠ 0 then (t, false) else t.placeRecord record p
    if placed.2 then placed.1.mapVf f fun q => { q with head := q.head + 1 }
    else
      let t := placed.1.mapVf f fun q => { q with stopped := true, qerrIndex := BitVec.ofNat 32 q.head }
      { t with dev := { t.dev with messages := t.dev.messages ++ [f] } }

/-- LAUNCH_PACKET (R385). -/
def execLaunchPacket (vf : Nat) (s : State) : Host.Outcome State Fault Refusal := .next (s.launch vf)

/-! ### The tile-state CSR -/

/-- KMCTL_TS_RESET: the core in focus writes TS 00 or 01 (R234), unless a fatal error has stopped it (R380). -/
def execKmctlTsReset (value : BitVec 2) (s : State) : Host.Outcome State Fault Refusal :=
  .next (if value.toNat < 2 ∧ s.core.run ≠ .halted then s.mapMat (MatState.writeTs value.toNat) else s)

/-- KMCTL_TS_SET: the core in focus writes TS 10 or 11 (R234), unless a fatal error has stopped it (R380). -/
def execKmctlTsSet (value : BitVec 2) (s : State) : Host.Outcome State Fault Refusal :=
  .next (if 2 ≤ value.toNat ∧ s.core.run ≠ .halted then s.mapMat (MatState.writeTs value.toNat) else s)

end Sys2Proof.Machine
end

