-- ==== Sys2Proof/Machine/ScalarFloat.lean ====
section
/-! DEFINITION. The control thread's F instructions (03_control_thread R58 to R60). With FS Off an F instruction raises
cause 2, and so does a rounding mode that names none. -/

namespace Sys2Proof.Machine

/-- The rounding mode of an F instruction: its own, or frm where rm is 111; 101 and 110 name none (R58, R60 item 8). -/
def roundingOf (rm : BitVec 3) : Exec Rounding := do
  let s ← get
  let c := if rm = 7 then s.core.frm else rm
  require (c.toNat < 5)
  return Rounding.ofCode c

/-- F state is on, else cause 2 (R58). -/
def needFloat : Exec Unit := do require (← get).fpOn

/-- The value of an f register. -/
def State.fv (s : State) (r : BitVec 5) : FVal := fp32.value (s.f r).toNat

/-- Writes an f register and accumulates flags. -/
def putF (rd : BitVec 5) (v : Nat × Flags) : Exec Unit :=
  modify fun s => (s.setF rd (BitVec.ofNat 32 v.1)).raiseScalar v.2

/-- Writes an x register and accumulates flags. -/
def putXFlags (rd : BitVec 5) (v : Word) (fl : Flags) : Exec Unit :=
  modify fun s => (s.setX rd v).raiseScalar fl

/-- An F instruction that rounds into an f register. -/
def floatOp (rd : BitVec 5) (rm : BitVec 3) (f : State → Rounding → Nat × Flags) :
    State → Host.Outcome State Fault Refusal :=
  retiring do
    needFloat
    let r ← roundingOf rm
    putF rd (f (← get) r)

/-- An F instruction that does not round, into an f register. -/
def floatMove (rd : BitVec 5) (f : State → Nat × Flags) : State → Host.Outcome State Fault Refusal :=
  retiring do
    needFloat
    putF rd (f (← get))

/-- An F instruction that does not round, into an x register. -/
def floatTest (rd : BitVec 5) (f : State → Word × Flags) : State → Host.Outcome State Fault Refusal :=
  retiring do
    needFloat
    let (v, fl) := f (← get)
    putXFlags rd v fl

/-- An FP32 value as an n-bit integer, signed or not: out of range it is the nearest end with NV, and a NaN is the
greatest value with NV. -/
def toIntReg (n : Nat) (sgn : Bool) (r : Rounding) (x : FVal) : Int × Flags :=
  let lo : Int := if sgn then -(2 ^ (n - 1)) else 0
  let hi : Int := if sgn then 2 ^ (n - 1) - 1 else 2 ^ n - 1
  match x with
  | .nan _ => (hi, flagNV)
  | .inf neg => (if neg then lo else hi, flagNV)
  | x =>
    let (v, inexact) := x.toInteger r
    if v < lo then (lo, flagNV) else if hi < v then (hi, flagNV) else (v, flagIf inexact flagNX)

/-- FCVT to an integer register: the n-bit result is sign-extended (R58). -/
def floatToInt (n : Nat) (sgn : Bool) (rd rs1 : BitVec 5) (rm : BitVec 3) : State → Host.Outcome State Fault Refusal :=
  retiring do
    needFloat
    let r ← roundingOf rm
    let (v, fl) := toIntReg n sgn r ((← get).fv rs1)
    putXFlags rd (sext n (wrap n v)) fl

/-- FLW (R58, R59). -/
def execFlw (rd rs1 : BitVec 5) (imm : BitVec 12) (s : State) : Host.Outcome State Fault Refusal :=
  retiring (do
    needFloat
    let v ← scalarLoad (s.addr rs1 imm) 4
    putF rd (v, 0)) s

/-- FSW (R58, R59). -/
def execFsw (rs1 rs2 : BitVec 5) (imm : BitVec 12) (s : State) : Host.Outcome State Fault Refusal :=
  retiring (do
    needFloat
    scalarStore (s.addr rs1 imm) 4 (s.f rs2).toNat) s

/-- FMADD.S: (f1 × f2) + f3, rounded once (R58). -/
def execFmaddS (rd rs1 rs2 rs3 : BitVec 5) (rm : BitVec 3) : State → Host.Outcome State Fault Refusal :=
  floatOp rd rm fun s r => fp32.fma r false false (s.fv rs1) (s.fv rs2) (s.fv rs3)

/-- FMSUB.S: (f1 × f2) − f3, rounded once (R58). -/
def execFmsubS (rd rs1 rs2 rs3 : BitVec 5) (rm : BitVec 3) : State → Host.Outcome State Fault Refusal :=
  floatOp rd rm fun s r => fp32.fma r false true (s.fv rs1) (s.fv rs2) (s.fv rs3)

/-- FNMSUB.S: −(f1 × f2) + f3, rounded once (R58). -/
def execFnmsubS (rd rs1 rs2 rs3 : BitVec 5) (rm : BitVec 3) : State → Host.Outcome State Fault Refusal :=
  floatOp rd rm fun s r => fp32.fma r true false (s.fv rs1) (s.fv rs2) (s.fv rs3)

/-- FNMADD.S: −(f1 × f2) − f3, rounded once (R58). -/
def execFnmaddS (rd rs1 rs2 rs3 : BitVec 5) (rm : BitVec 3) : State → Host.Outcome State Fault Refusal :=
  floatOp rd rm fun s r => fp32.fma r true true (s.fv rs1) (s.fv rs2) (s.fv rs3)

/-- FADD.S (R58). -/
def execFaddS (rd rs1 rs2 : BitVec 5) (rm : BitVec 3) : State → Host.Outcome State Fault Refusal :=
  floatOp rd rm fun s r => fp32.add r (s.fv rs1) (s.fv rs2)

/-- FSUB.S (R58). -/
def execFsubS (rd rs1 rs2 : BitVec 5) (rm : BitVec 3) : State → Host.Outcome State Fault Refusal :=
  floatOp rd rm fun s r => fp32.sub r (s.fv rs1) (s.fv rs2)

/-- FMUL.S (R58). -/
def execFmulS (rd rs1 rs2 : BitVec 5) (rm : BitVec 3) : State → Host.Outcome State Fault Refusal :=
  floatOp rd rm fun s r => fp32.mul r (s.fv rs1) (s.fv rs2)

/-- FDIV.S (R58). -/
def execFdivS (rd rs1 rs2 : BitVec 5) (rm : BitVec 3) : State → Host.Outcome State Fault Refusal :=
  floatOp rd rm fun s r => fp32.div r (s.fv rs1) (s.fv rs2)

/-- FSQRT.S (R58). -/
def execFsqrtS (rd rs1 : BitVec 5) (rm : BitVec 3) : State → Host.Outcome State Fault Refusal :=
  floatOp rd rm fun s r => fp32.sqrt r (s.fv rs1)

/-- FSGNJ.S: f1 with the sign of f2 (R58). -/
def execFsgnjS (rd rs1 rs2 : BitVec 5) : State → Host.Outcome State Fault Refusal :=
  floatMove rd fun s => (fp32.withSign (s.f rs1).toNat (s.f rs2).msb, 0)

/-- FSGNJN.S: f1 with the inverse of the sign of f2 (R58). -/
def execFsgnjnS (rd rs1 rs2 : BitVec 5) : State → Host.Outcome State Fault Refusal :=
  floatMove rd fun s => (fp32.withSign (s.f rs1).toNat (!(s.f rs2).msb), 0)

/-- FSGNJX.S: f1 with the exclusive-or of both signs (R58). -/
def execFsgnjxS (rd rs1 rs2 : BitVec 5) : State → Host.Outcome State Fault Refusal :=
  floatMove rd fun s => (fp32.withSign (s.f rs1).toNat ((s.f rs1).msb != (s.f rs2).msb), 0)

/-- FMIN.S (R58). -/
def execFminS (rd rs1 rs2 : BitVec 5) : State → Host.Outcome State Fault Refusal :=
  floatMove rd fun s => fp32.bound false (s.f rs1).toNat (s.f rs2).toNat

/-- FMAX.S (R58). -/
def execFmaxS (rd rs1 rs2 : BitVec 5) : State → Host.Outcome State Fault Refusal :=
  floatMove rd fun s => fp32.bound true (s.f rs1).toNat (s.f rs2).toNat

/-- The result of a compare as x and flags. -/
def testWord (r : Bool × Flags) : Word × Flags := (boolWord r.1, r.2)

/-- FLE.S: NV on any NaN (R58). -/
def execFleS (rd rs1 rs2 : BitVec 5) : State → Host.Outcome State Fault Refusal :=
  floatTest rd fun s => testWord (fp32.compare 3 (s.f rs1).toNat (s.f rs2).toNat)

/-- FLT.S: NV on any NaN (R58). -/
def execFltS (rd rs1 rs2 : BitVec 5) : State → Host.Outcome State Fault Refusal :=
  floatTest rd fun s => testWord (fp32.compare 2 (s.f rs1).toNat (s.f rs2).toNat)

/-- FEQ.S: NV on a signalling NaN (R58). -/
def execFeqS (rd rs1 rs2 : BitVec 5) : State → Host.Outcome State Fault Refusal :=
  floatTest rd fun s => testWord (fp32.compare 0 (s.f rs1).toNat (s.f rs2).toNat)

/-- FCVT.W.S (R58). -/
def execFcvtWS (rd rs1 : BitVec 5) (rm : BitVec 3) : State → Host.Outcome State Fault Refusal := floatToInt 32 true rd rs1 rm

/-- FCVT.WU.S (R58). -/
def execFcvtWuS (rd rs1 : BitVec 5) (rm : BitVec 3) : State → Host.Outcome State Fault Refusal := floatToInt 32 false rd rs1 rm

/-- FCVT.L.S (R58). -/
def execFcvtLS (rd rs1 : BitVec 5) (rm : BitVec 3) : State → Host.Outcome State Fault Refusal := floatToInt 64 true rd rs1 rm

/-- FCVT.LU.S (R58). -/
def execFcvtLuS (rd rs1 : BitVec 5) (rm : BitVec 3) : State → Host.Outcome State Fault Refusal := floatToInt 64 false rd rs1 rm

/-- FCVT.S.W (R58). -/
def execFcvtSW (rd rs1 : BitVec 5) (rm : BitVec 3) : State → Host.Outcome State Fault Refusal :=
  floatOp rd rm fun s r => fp32.rnd r (FVal.ofInt (signed 32 (s.x rs1).toNat))

/-- FCVT.S.WU (R58). -/
def execFcvtSWu (rd rs1 : BitVec 5) (rm : BitVec 3) : State → Host.Outcome State Fault Refusal :=
  floatOp rd rm fun s r => fp32.rnd r (FVal.ofInt (((s.x rs1).toNat % 2 ^ 32 : Nat)))

/-- FCVT.S.L (R58). -/
def execFcvtSL (rd rs1 : BitVec 5) (rm : BitVec 3) : State → Host.Outcome State Fault Refusal :=
  floatOp rd rm fun s r => fp32.rnd r (FVal.ofInt (signed 64 (s.x rs1).toNat))

/-- FCVT.S.LU (R58). -/
def execFcvtSLu (rd rs1 : BitVec 5) (rm : BitVec 3) : State → Host.Outcome State Fault Refusal :=
  floatOp rd rm fun s r => fp32.rnd r (FVal.ofInt (((s.x rs1).toNat : Nat)))

/-- FMV.X.W: the bits, sign-extended (R58). -/
def execFmvXW (rd rs1 : BitVec 5) : State → Host.Outcome State Fault Refusal := floatTest rd fun s => (sext32 (s.f rs1), 0)

/-- FCLASS.S (R58). -/
def execFclassS (rd rs1 : BitVec 5) : State → Host.Outcome State Fault Refusal :=
  floatTest rd fun s => (BitVec.ofNat 64 (fp32.classOf (s.f rs1).toNat), 0)

/-- FMV.W.X: the low 32 bits (R58). -/
def execFmvWX (rd rs1 : BitVec 5) : State → Host.Outcome State Fault Refusal := floatMove rd fun s => ((s.x rs1).toNat % 2 ^ 32, 0)

end Sys2Proof.Machine
end

