-- ==== Sys2Proof/Machine/VecInt.lean ====
section
/-! DEFINITION. The vector integer and mask instructions (05_vector_integer R115 to R125): custom-0 funct6 0x00 to 0x1C,
and the mask operations of 0x06 to 0x08 and 0x1D. -/

namespace Sys2Proof.Machine

/-- A single-width integer instruction (R116 to R120, R122): vdot4 requires SEW 32. -/
def intVector (op : IntOp) (b : State → Operand) (vd vs2 : BitVec 5) (vm : BitVec 1) :
    State → Host.Outcome State Fault Refusal :=
  vectorOp (fun s => maskOk vm vd.toNat && (op != .dot4 || s.sew == 32))
    (fun s => vs2.toNat :: (b s).reads ++ (if op.accumulates then [vd.toNat] else []) ++ maskReads vm)
    (fun _ => [vd.toNat])
    fun s =>
      let v := s.core.vec
      let geo := v.geometry
      let w := s.sew
      elementwise geo (.elems w vd.toNat 1) fun i =>
        if v.active geo vm i then
          some (op.eval w (v.elem geo w vs2.toNat i) ((b s).at v geo w i) (v.elem geo w vd.toNat i), 0)
        else none

/-- vcmp: a mask destination, which may be v0 under a mask (R123). -/
def compareVector (cc : BitVec 3) (md : BitVec 2) (b : State → Operand) (vs2 : BitVec 5) (vm : BitVec 1) :
    State → Host.Outcome State Fault Refusal :=
  vectorOp (fun _ => true) (fun s => vs2.toNat :: (b s).reads ++ maskReads vm) (fun _ => [md.toNat])
    fun s =>
      let v := s.core.vec
      let geo := v.geometry
      let w := s.sew
      elementwise geo (.mask md.toNat) fun i =>
        if v.active geo vm i then
          some (if intCompare cc w (v.elem geo w vs2.toNat i) ((b s).at v geo w i) then 1 else 0, 0)
        else none

/-- A widening instruction of two SEW operands into a pair (R121): the pair overlaps no source. -/
def wideningVector (f : Int → Int → Int) (sgn : Bool) (b : State → Operand) (vd vs2 : BitVec 5) (vm : BitVec 1) :
    State → Host.Outcome State Fault Refusal :=
  vectorOp
    (fun s => maskOk vm vd.toNat && s.sew != 64 && vd.toNat % 2 == 0 &&
      (vs2.toNat :: (b s).reads).all fun r => r / 2 != vd.toNat / 2)
    (fun s => vs2.toNat :: (b s).reads ++ maskReads vm) (fun _ => [vd.toNat, vd.toNat + 1])
    fun s =>
      let v := s.core.vec
      let geo := v.geometry
      let w := s.sew
      elementwise geo (.elems (2 * w) vd.toNat 2) fun i =>
        if v.active geo vm i then
          some (wrap (2 * w) (f (extend sgn w (v.elem geo w vs2.toNat i)) (extend sgn w ((b s).at v geo w i))), 0)
        else none

/-- The .wv form of a widening sum (R121): vs2 is a pair, which may be vd itself. -/
def widePlusVector (sgn : Bool) (vd vs2 vs1 : BitVec 5) (vm : BitVec 1) :
    State → Host.Outcome State Fault Refusal :=
  vectorOp
    (fun s => maskOk vm vd.toNat && s.sew != 64 && vd.toNat % 2 == 0 && vs2.toNat % 2 == 0 &&
      vs1.toNat / 2 != vd.toNat / 2)
    (fun _ => [vs2.toNat, vs2.toNat + 1, vs1.toNat] ++ maskReads vm) (fun _ => [vd.toNat, vd.toNat + 1])
    fun s =>
      let v := s.core.vec
      let geo := v.geometry
      let w := s.sew
      elementwise geo (.elems (2 * w) vd.toNat 2) fun i =>
        if v.active geo vm i then
          some (wrap (2 * w) (v.elem geo (2 * w) vs2.toNat i + extend sgn w (v.elem geo w vs1.toNat i)), 0)
        else none

/-- A narrowing clip (R118): vs2 is a pair that vd does not overlap. -/
def clipVector (sgn : Bool) (vd vs2 vs1 : BitVec 5) (vm : BitVec 1) : State → Host.Outcome State Fault Refusal :=
  vectorOp
    (fun s => maskOk vm vd.toNat && s.sew != 64 && vs2.toNat % 2 == 0 && vs2.toNat / 2 != vd.toNat / 2)
    (fun _ => [vs2.toNat, vs2.toNat + 1, vs1.toNat] ++ maskReads vm) (fun _ => [vd.toNat])
    fun s =>
      let v := s.core.vec
      let geo := v.geometry
      let w := s.sew
      elementwise geo (.elems w vd.toNat 1) fun i =>
        if v.active geo vm i then
          some (narrowClip sgn w (v.elem geo (2 * w) vs2.toNat i) (v.elem geo w vs1.toNat i), 0)
        else none

/-- The active elements of the body, in order, with kvstart taken as 0 (R107). -/
def VecState.activeList (v : VecState) (geo : Geometry) (vm : BitVec 1) (hi : Nat) : List Nat :=
  (List.range hi).filter (v.active geo vm)

/-- A reduction (R124): element 0 of vd from the seed and the active elements; vd may be any register. -/
def reduceVector (op : IntOp) (vd vs2 vs1 : BitVec 5) (vm : BitVec 1) : State → Host.Outcome State Fault Refusal :=
  vectorOp (fun _ => true) (fun _ => [vs2.toNat, vs1.toNat] ++ maskReads vm) (fun _ => [vd.toNat])
    fun s =>
      let v := s.core.vec
      let geo := v.geometry
      let w := s.sew
      let total := (v.activeList geo vm s.vl).foldl (fun acc i => op.eval w acc (v.elem geo w vs2.toNat i) 0)
        (v.elem geo w vs1.toNat 0)
      wholesale geo (.elems w vd.toNat 1) 1 fun _ => some (total, 0)

/-- A mask operation of kind .mm (R125). -/
def maskVector (f : Bool → Bool → Bool) (vd vs2 vs1 : BitVec 5) : State → Host.Outcome State Fault Refusal :=
  vectorOp (fun _ => true) (fun _ => [vs2.toNat, vs1.toNat]) (fun _ => [vd.toNat])
    fun s =>
      let v := s.core.vec
      let geo := v.geometry
      wholesale geo (.mask vd.toNat) s.vl fun i =>
        some (if f (v.maskBit geo vs2.toNat i) (v.maskBit geo vs1.toNat i) then 1 else 0, 0)

/-- A mask query into an x register (R125): the active elements whose bit of vs2 is one. -/
def maskQuery (f : List Nat → Word) (rd vs2 : BitVec 5) (vm : BitVec 1) : State → Host.Outcome State Fault Refusal :=
  vectorOp (fun _ => true) (fun _ => vs2.toNat :: maskReads vm) (fun _ => [])
    fun s => do
      let v := s.core.vec
      let geo := v.geometry
      putX rd (f ((v.activeList geo vm s.vl).filter (v.maskBit geo vs2.toNat)))
      modify (State.setVstart 0)

/-- vadd.vv (R116). -/
def execVaddVv (vd vs2 vs1 : BitVec 5) (vm : BitVec 1) : State → Host.Outcome State Fault Refusal :=
  intVector .add (fun _ => .vec vs1.toNat) vd vs2 vm

/-- vadd.vx (R116). -/
def execVaddVx (vd vs2 rs1 : BitVec 5) (vm : BitVec 1) : State → Host.Outcome State Fault Refusal :=
  intVector .add (fun s => s.xOperand rs1) vd vs2 vm

/-- vadd.vi (R116). -/
def execVaddVi (vd vs2 imm : BitVec 5) (vm : BitVec 1) : State → Host.Outcome State Fault Refusal :=
  intVector .add (fun s => s.immOperand imm) vd vs2 vm

/-- vadd.vs (R124). -/
def execVaddVs (vd vs2 vs1 : BitVec 5) (vm : BitVec 1) : State → Host.Outcome State Fault Refusal :=
  reduceVector .add vd vs2 vs1 vm

/-- vsub.vv (R116). -/
def execVsubVv (vd vs2 vs1 : BitVec 5) (vm : BitVec 1) : State → Host.Outcome State Fault Refusal :=
  intVector .sub (fun _ => .vec vs1.toNat) vd vs2 vm

/-- vrsub.vx (R116). -/
def execVrsubVx (vd vs2 rs1 : BitVec 5) (vm : BitVec 1) : State → Host.Outcome State Fault Refusal :=
  intVector .rsub (fun s => s.xOperand rs1) vd vs2 vm

/-- vrsub.vi (R116). -/
def execVrsubVi (vd vs2 imm : BitVec 5) (vm : BitVec 1) : State → Host.Outcome State Fault Refusal :=
  intVector .rsub (fun s => s.immOperand imm) vd vs2 vm

/-- vminu.vv (R116). -/
def execVminuVv (vd vs2 vs1 : BitVec 5) (vm : BitVec 1) : State → Host.Outcome State Fault Refusal :=
  intVector .minu (fun _ => .vec vs1.toNat) vd vs2 vm

/-- vminu.vx (R116). -/
def execVminuVx (vd vs2 rs1 : BitVec 5) (vm : BitVec 1) : State → Host.Outcome State Fault Refusal :=
  intVector .minu (fun s => s.xOperand rs1) vd vs2 vm

/-- vminu.vs (R124). -/
def execVminuVs (vd vs2 vs1 : BitVec 5) (vm : BitVec 1) : State → Host.Outcome State Fault Refusal :=
  reduceVector .minu vd vs2 vs1 vm

/-- vmin.vv (R116). -/
def execVminVv (vd vs2 vs1 : BitVec 5) (vm : BitVec 1) : State → Host.Outcome State Fault Refusal :=
  intVector .min (fun _ => .vec vs1.toNat) vd vs2 vm

/-- vmin.vx (R116). -/
def execVminVx (vd vs2 rs1 : BitVec 5) (vm : BitVec 1) : State → Host.Outcome State Fault Refusal :=
  intVector .min (fun s => s.xOperand rs1) vd vs2 vm

/-- vmin.vs (R124). -/
def execVminVs (vd vs2 vs1 : BitVec 5) (vm : BitVec 1) : State → Host.Outcome State Fault Refusal :=
  reduceVector .min vd vs2 vs1 vm

/-- vmaxu.vv (R116). -/
def execVmaxuVv (vd vs2 vs1 : BitVec 5) (vm : BitVec 1) : State → Host.Outcome State Fault Refusal :=
  intVector .maxu (fun _ => .vec vs1.toNat) vd vs2 vm

/-- vmaxu.vx (R116). -/
def execVmaxuVx (vd vs2 rs1 : BitVec 5) (vm : BitVec 1) : State → Host.Outcome State Fault Refusal :=
  intVector .maxu (fun s => s.xOperand rs1) vd vs2 vm

/-- vmaxu.vs (R124). -/
def execVmaxuVs (vd vs2 vs1 : BitVec 5) (vm : BitVec 1) : State → Host.Outcome State Fault Refusal :=
  reduceVector .maxu vd vs2 vs1 vm

/-- vmax.vv (R116). -/
def execVmaxVv (vd vs2 vs1 : BitVec 5) (vm : BitVec 1) : State → Host.Outcome State Fault Refusal :=
  intVector .max (fun _ => .vec vs1.toNat) vd vs2 vm

/-- vmax.vx (R116). -/
def execVmaxVx (vd vs2 rs1 : BitVec 5) (vm : BitVec 1) : State → Host.Outcome State Fault Refusal :=
  intVector .max (fun s => s.xOperand rs1) vd vs2 vm

/-- vmax.vs (R124). -/
def execVmaxVs (vd vs2 vs1 : BitVec 5) (vm : BitVec 1) : State → Host.Outcome State Fault Refusal :=
  reduceVector .max vd vs2 vs1 vm

/-- vand.vv (R116). -/
def execVandVv (vd vs2 vs1 : BitVec 5) (vm : BitVec 1) : State → Host.Outcome State Fault Refusal :=
  intVector .and (fun _ => .vec vs1.toNat) vd vs2 vm

/-- vand.vx (R116). -/
def execVandVx (vd vs2 rs1 : BitVec 5) (vm : BitVec 1) : State → Host.Outcome State Fault Refusal :=
  intVector .and (fun s => s.xOperand rs1) vd vs2 vm

/-- vand.vi (R116). -/
def execVandVi (vd vs2 imm : BitVec 5) (vm : BitVec 1) : State → Host.Outcome State Fault Refusal :=
  intVector .and (fun s => s.immOperand imm) vd vs2 vm

/-- vand.mm (R125). -/
def execVandMm (vd vs2 vs1 : BitVec 5) : State → Host.Outcome State Fault Refusal :=
  maskVector (· && ·) vd vs2 vs1

/-- vand.vs (R124). -/
def execVandVs (vd vs2 vs1 : BitVec 5) (vm : BitVec 1) : State → Host.Outcome State Fault Refusal :=
  reduceVector .and vd vs2 vs1 vm

/-- vor.vv (R116). -/
def execVorVv (vd vs2 vs1 : BitVec 5) (vm : BitVec 1) : State → Host.Outcome State Fault Refusal :=
  intVector .or (fun _ => .vec vs1.toNat) vd vs2 vm

/-- vor.vx (R116). -/
def execVorVx (vd vs2 rs1 : BitVec 5) (vm : BitVec 1) : State → Host.Outcome State Fault Refusal :=
  intVector .or (fun s => s.xOperand rs1) vd vs2 vm

/-- vor.vi (R116). -/
def execVorVi (vd vs2 imm : BitVec 5) (vm : BitVec 1) : State → Host.Outcome State Fault Refusal :=
  intVector .or (fun s => s.immOperand imm) vd vs2 vm

/-- vor.mm (R125). -/
def execVorMm (vd vs2 vs1 : BitVec 5) : State → Host.Outcome State Fault Refusal :=
  maskVector (· || ·) vd vs2 vs1

/-- vor.vs (R124). -/
def execVorVs (vd vs2 vs1 : BitVec 5) (vm : BitVec 1) : State → Host.Outcome State Fault Refusal :=
  reduceVector .or vd vs2 vs1 vm

/-- vxor.vv (R116). -/
def execVxorVv (vd vs2 vs1 : BitVec 5) (vm : BitVec 1) : State → Host.Outcome State Fault Refusal :=
  intVector .xor (fun _ => .vec vs1.toNat) vd vs2 vm

/-- vxor.vx (R116). -/
def execVxorVx (vd vs2 rs1 : BitVec 5) (vm : BitVec 1) : State → Host.Outcome State Fault Refusal :=
  intVector .xor (fun s => s.xOperand rs1) vd vs2 vm

/-- vxor.vi (R116). -/
def execVxorVi (vd vs2 imm : BitVec 5) (vm : BitVec 1) : State → Host.Outcome State Fault Refusal :=
  intVector .xor (fun s => s.immOperand imm) vd vs2 vm

/-- vxor.mm (R125). -/
def execVxorMm (vd vs2 vs1 : BitVec 5) : State → Host.Outcome State Fault Refusal :=
  maskVector Bool.xor vd vs2 vs1

/-- vxor.vs (R124). -/
def execVxorVs (vd vs2 vs1 : BitVec 5) (vm : BitVec 1) : State → Host.Outcome State Fault Refusal :=
  reduceVector .xor vd vs2 vs1 vm

/-- vsll.vv (R118). -/
def execVsllVv (vd vs2 vs1 : BitVec 5) (vm : BitVec 1) : State → Host.Outcome State Fault Refusal :=
  intVector .sll (fun _ => .vec vs1.toNat) vd vs2 vm

/-- vsll.vx (R118). -/
def execVsllVx (vd vs2 rs1 : BitVec 5) (vm : BitVec 1) : State → Host.Outcome State Fault Refusal :=
  intVector .sll (fun s => s.xOperand rs1) vd vs2 vm

/-- vsll.vi (R118). -/
def execVsllVi (vd vs2 imm : BitVec 5) (vm : BitVec 1) : State → Host.Outcome State Fault Refusal :=
  intVector .sll (fun _ => uimmOperand imm) vd vs2 vm

/-- vsrl.vv (R118). -/
def execVsrlVv (vd vs2 vs1 : BitVec 5) (vm : BitVec 1) : State → Host.Outcome State Fault Refusal :=
  intVector .srl (fun _ => .vec vs1.toNat) vd vs2 vm

/-- vsrl.vx (R118). -/
def execVsrlVx (vd vs2 rs1 : BitVec 5) (vm : BitVec 1) : State → Host.Outcome State Fault Refusal :=
  intVector .srl (fun s => s.xOperand rs1) vd vs2 vm

/-- vsrl.vi (R118). -/
def execVsrlVi (vd vs2 imm : BitVec 5) (vm : BitVec 1) : State → Host.Outcome State Fault Refusal :=
  intVector .srl (fun _ => uimmOperand imm) vd vs2 vm

/-- vsra.vv (R118). -/
def execVsraVv (vd vs2 vs1 : BitVec 5) (vm : BitVec 1) : State → Host.Outcome State Fault Refusal :=
  intVector .sra (fun _ => .vec vs1.toNat) vd vs2 vm

/-- vsra.vx (R118). -/
def execVsraVx (vd vs2 rs1 : BitVec 5) (vm : BitVec 1) : State → Host.Outcome State Fault Refusal :=
  intVector .sra (fun s => s.xOperand rs1) vd vs2 vm

/-- vsra.vi (R118). -/
def execVsraVi (vd vs2 imm : BitVec 5) (vm : BitVec 1) : State → Host.Outcome State Fault Refusal :=
  intVector .sra (fun _ => uimmOperand imm) vd vs2 vm

/-- vnclipu.wv (R118). -/
def execVnclipuWv (vd vs2 vs1 : BitVec 5) (vm : BitVec 1) : State → Host.Outcome State Fault Refusal :=
  clipVector false vd vs2 vs1 vm

/-- vnclip.wv (R118). -/
def execVnclipWv (vd vs2 vs1 : BitVec 5) (vm : BitVec 1) : State → Host.Outcome State Fault Refusal :=
  clipVector true vd vs2 vs1 vm

/-- vmul.vv (R119). -/
def execVmulVv (vd vs2 vs1 : BitVec 5) (vm : BitVec 1) : State → Host.Outcome State Fault Refusal :=
  intVector .mul (fun _ => .vec vs1.toNat) vd vs2 vm

/-- vmul.vx (R119). -/
def execVmulVx (vd vs2 rs1 : BitVec 5) (vm : BitVec 1) : State → Host.Outcome State Fault Refusal :=
  intVector .mul (fun s => s.xOperand rs1) vd vs2 vm

/-- vmulh.vv (R119). -/
def execVmulhVv (vd vs2 vs1 : BitVec 5) (vm : BitVec 1) : State → Host.Outcome State Fault Refusal :=
  intVector .mulh (fun _ => .vec vs1.toNat) vd vs2 vm

/-- vmulh.vx (R119). -/
def execVmulhVx (vd vs2 rs1 : BitVec 5) (vm : BitVec 1) : State → Host.Outcome State Fault Refusal :=
  intVector .mulh (fun s => s.xOperand rs1) vd vs2 vm

/-- vmacc.vv (R119). -/
def execVmaccVv (vd vs2 vs1 : BitVec 5) (vm : BitVec 1) : State → Host.Outcome State Fault Refusal :=
  intVector .macc (fun _ => .vec vs1.toNat) vd vs2 vm

/-- vmacc.vx (R119). -/
def execVmaccVx (vd vs2 rs1 : BitVec 5) (vm : BitVec 1) : State → Host.Outcome State Fault Refusal :=
  intVector .macc (fun s => s.xOperand rs1) vd vs2 vm

/-- vdot4.vv (R122). -/
def execVdot4Vv (vd vs2 vs1 : BitVec 5) (vm : BitVec 1) : State → Host.Outcome State Fault Refusal :=
  intVector .dot4 (fun _ => .vec vs1.toNat) vd vs2 vm

/-- vdot4.vx (R122). -/
def execVdot4Vx (vd vs2 rs1 : BitVec 5) (vm : BitVec 1) : State → Host.Outcome State Fault Refusal :=
  intVector .dot4 (fun s => s.xOperand rs1) vd vs2 vm

/-- vdivu.vv (R120). -/
def execVdivuVv (vd vs2 vs1 : BitVec 5) (vm : BitVec 1) : State → Host.Outcome State Fault Refusal :=
  intVector .divu (fun _ => .vec vs1.toNat) vd vs2 vm

/-- vdivu.vx (R120). -/
def execVdivuVx (vd vs2 rs1 : BitVec 5) (vm : BitVec 1) : State → Host.Outcome State Fault Refusal :=
  intVector .divu (fun s => s.xOperand rs1) vd vs2 vm

/-- vdiv.vv (R120). -/
def execVdivVv (vd vs2 vs1 : BitVec 5) (vm : BitVec 1) : State → Host.Outcome State Fault Refusal :=
  intVector .div (fun _ => .vec vs1.toNat) vd vs2 vm

/-- vdiv.vx (R120). -/
def execVdivVx (vd vs2 rs1 : BitVec 5) (vm : BitVec 1) : State → Host.Outcome State Fault Refusal :=
  intVector .div (fun s => s.xOperand rs1) vd vs2 vm

/-- vremu.vv (R120). -/
def execVremuVv (vd vs2 vs1 : BitVec 5) (vm : BitVec 1) : State → Host.Outcome State Fault Refusal :=
  intVector .remu (fun _ => .vec vs1.toNat) vd vs2 vm

/-- vremu.vx (R120). -/
def execVremuVx (vd vs2 rs1 : BitVec 5) (vm : BitVec 1) : State → Host.Outcome State Fault Refusal :=
  intVector .remu (fun s => s.xOperand rs1) vd vs2 vm

/-- vrem.vv (R120). -/
def execVremVv (vd vs2 vs1 : BitVec 5) (vm : BitVec 1) : State → Host.Outcome State Fault Refusal :=
  intVector .rem (fun _ => .vec vs1.toNat) vd vs2 vm

/-- vrem.vx (R120). -/
def execVremVx (vd vs2 rs1 : BitVec 5) (vm : BitVec 1) : State → Host.Outcome State Fault Refusal :=
  intVector .rem (fun s => s.xOperand rs1) vd vs2 vm

/-- vsaddu.vv (R117). -/
def execVsadduVv (vd vs2 vs1 : BitVec 5) (vm : BitVec 1) : State → Host.Outcome State Fault Refusal :=
  intVector .saddu (fun _ => .vec vs1.toNat) vd vs2 vm

/-- vsaddu.vx (R117). -/
def execVsadduVx (vd vs2 rs1 : BitVec 5) (vm : BitVec 1) : State → Host.Outcome State Fault Refusal :=
  intVector .saddu (fun s => s.xOperand rs1) vd vs2 vm

/-- vsaddu.vi (R117). -/
def execVsadduVi (vd vs2 imm : BitVec 5) (vm : BitVec 1) : State → Host.Outcome State Fault Refusal :=
  intVector .saddu (fun s => s.immOperand imm) vd vs2 vm

/-- vsadd.vv (R117). -/
def execVsaddVv (vd vs2 vs1 : BitVec 5) (vm : BitVec 1) : State → Host.Outcome State Fault Refusal :=
  intVector .sadd (fun _ => .vec vs1.toNat) vd vs2 vm

/-- vsadd.vx (R117). -/
def execVsaddVx (vd vs2 rs1 : BitVec 5) (vm : BitVec 1) : State → Host.Outcome State Fault Refusal :=
  intVector .sadd (fun s => s.xOperand rs1) vd vs2 vm

/-- vsadd.vi (R117). -/
def execVsaddVi (vd vs2 imm : BitVec 5) (vm : BitVec 1) : State → Host.Outcome State Fault Refusal :=
  intVector .sadd (fun s => s.immOperand imm) vd vs2 vm

/-- vssubu.vv (R117). -/
def execVssubuVv (vd vs2 vs1 : BitVec 5) (vm : BitVec 1) : State → Host.Outcome State Fault Refusal :=
  intVector .ssubu (fun _ => .vec vs1.toNat) vd vs2 vm

/-- vssubu.vx (R117). -/
def execVssubuVx (vd vs2 rs1 : BitVec 5) (vm : BitVec 1) : State → Host.Outcome State Fault Refusal :=
  intVector .ssubu (fun s => s.xOperand rs1) vd vs2 vm

/-- vssub.vv (R117). -/
def execVssubVv (vd vs2 vs1 : BitVec 5) (vm : BitVec 1) : State → Host.Outcome State Fault Refusal :=
  intVector .ssub (fun _ => .vec vs1.toNat) vd vs2 vm

/-- vssub.vx (R117). -/
def execVssubVx (vd vs2 rs1 : BitVec 5) (vm : BitVec 1) : State → Host.Outcome State Fault Refusal :=
  intVector .ssub (fun s => s.xOperand rs1) vd vs2 vm

/-- vcmp.vv (R123). -/
def execVcmpVv (cc : BitVec 3) (md : BitVec 2) (vs2 vs1 : BitVec 5) (vm : BitVec 1) : State → Host.Outcome State Fault Refusal :=
  compareVector cc md (fun _ => .vec vs1.toNat) vs2 vm

/-- vcmp.vx (R123). -/
def execVcmpVx (cc : BitVec 3) (md : BitVec 2) (vs2 rs1 : BitVec 5) (vm : BitVec 1) : State → Host.Outcome State Fault Refusal :=
  compareVector cc md (fun s => s.xOperand rs1) vs2 vm

/-- vcmp.vi (R123). -/
def execVcmpVi (cc : BitVec 3) (md : BitVec 2) (vs2 imm : BitVec 5) (vm : BitVec 1) : State → Host.Outcome State Fault Refusal :=
  compareVector cc md (fun s => s.immOperand imm) vs2 vm

/-- vwaddu.vv (R121). -/
def execVwadduVv (vd vs2 vs1 : BitVec 5) (vm : BitVec 1) : State → Host.Outcome State Fault Refusal :=
  wideningVector (· + ·) false (fun _ => .vec vs1.toNat) vd vs2 vm

/-- vwaddu.vx (R121). -/
def execVwadduVx (vd vs2 rs1 : BitVec 5) (vm : BitVec 1) : State → Host.Outcome State Fault Refusal :=
  wideningVector (· + ·) false (fun s => s.xOperand rs1) vd vs2 vm

/-- vwaddu.wv (R121). -/
def execVwadduWv (vd vs2 vs1 : BitVec 5) (vm : BitVec 1) : State → Host.Outcome State Fault Refusal :=
  widePlusVector false vd vs2 vs1 vm

/-- vwadd.vv (R121). -/
def execVwaddVv (vd vs2 vs1 : BitVec 5) (vm : BitVec 1) : State → Host.Outcome State Fault Refusal :=
  wideningVector (· + ·) true (fun _ => .vec vs1.toNat) vd vs2 vm

/-- vwadd.vx (R121). -/
def execVwaddVx (vd vs2 rs1 : BitVec 5) (vm : BitVec 1) : State → Host.Outcome State Fault Refusal :=
  wideningVector (· + ·) true (fun s => s.xOperand rs1) vd vs2 vm

/-- vwadd.wv (R121). -/
def execVwaddWv (vd vs2 vs1 : BitVec 5) (vm : BitVec 1) : State → Host.Outcome State Fault Refusal :=
  widePlusVector true vd vs2 vs1 vm

/-- vwmulu.vv (R121). -/
def execVwmuluVv (vd vs2 vs1 : BitVec 5) (vm : BitVec 1) : State → Host.Outcome State Fault Refusal :=
  wideningVector (· * ·) false (fun _ => .vec vs1.toNat) vd vs2 vm

/-- vwmulu.vx (R121). -/
def execVwmuluVx (vd vs2 rs1 : BitVec 5) (vm : BitVec 1) : State → Host.Outcome State Fault Refusal :=
  wideningVector (· * ·) false (fun s => s.xOperand rs1) vd vs2 vm

/-- vwmul.vv (R121). -/
def execVwmulVv (vd vs2 vs1 : BitVec 5) (vm : BitVec 1) : State → Host.Outcome State Fault Refusal :=
  wideningVector (· * ·) true (fun _ => .vec vs1.toNat) vd vs2 vm

/-- vwmul.vx (R121). -/
def execVwmulVx (vd vs2 rs1 : BitVec 5) (vm : BitVec 1) : State → Host.Outcome State Fault Refusal :=
  wideningVector (· * ·) true (fun s => s.xOperand rs1) vd vs2 vm

/-- vmpopc: how many active elements have their bit set (R125). -/
def execVmpopc (rd vs2 : BitVec 5) (vm : BitVec 1) : State → Host.Outcome State Fault Refusal :=
  maskQuery (fun l => BitVec.ofNat 64 l.length) rd vs2 vm

/-- vmfirst: the first active element whose bit is set, or −1 (R125). -/
def execVmfirst (rd vs2 : BitVec 5) (vm : BitVec 1) : State → Host.Outcome State Fault Refusal :=
  maskQuery (fun l => match l with | i :: _ => BitVec.ofNat 64 i | [] => BitVec.allOnes 64) rd vs2 vm

/-- vmprefix: active bits up to and including the first set one (R125). -/
def execVmprefix (vd vs2 : BitVec 5) (vm : BitVec 1) : State → Host.Outcome State Fault Refusal :=
  vectorOp (fun _ => maskOk vm vd.toNat) (fun _ => vs2.toNat :: maskReads vm) (fun _ => [vd.toNat])
    fun s =>
      let v := s.core.vec
      let geo := v.geometry
      let first := ((v.activeList geo vm s.vl).filter (v.maskBit geo vs2.toNat)).head?
      wholesale geo (.mask vd.toNat) s.vl fun i =>
        if v.active geo vm i then some (match first with | none => 1 | some k => if i ≤ k then 1 else 0, 0) else none

/-- viota: the exclusive prefix count of set active bits; vd differs from every register read (R108, R125). -/
def execViota (vd vs2 : BitVec 5) (vm : BitVec 1) : State → Host.Outcome State Fault Refusal :=
  vectorOp (fun _ => maskOk vm vd.toNat && vd != vs2) (fun _ => vs2.toNat :: maskReads vm) (fun _ => [vd.toNat])
    fun s =>
      let v := s.core.vec
      let geo := v.geometry
      let w := s.sew
      let hits := (v.activeList geo vm s.vl).filter (v.maskBit geo vs2.toNat)
      wholesale geo (.elems w vd.toNat 1) s.vl fun i =>
        if v.active geo vm i then some ((hits.filter (· < i)).length % 2 ^ w, 0) else none

/-- vid: each active element holds its index (R125). -/
def execVid (vd : BitVec 5) (vm : BitVec 1) : State → Host.Outcome State Fault Refusal :=
  vectorOp (fun _ => maskOk vm vd.toNat) (fun _ => maskReads vm) (fun _ => [vd.toNat])
    fun s =>
      let v := s.core.vec
      let geo := v.geometry
      let w := s.sew
      wholesale geo (.elems w vd.toNat 1) s.vl fun i =>
        if v.active geo vm i then some (i % 2 ^ w, 0) else none

/-- vmnot (R125). -/
def execVmnot (vd vs2 : BitVec 5) : State → Host.Outcome State Fault Refusal :=
  vectorOp (fun _ => true) (fun _ => [vs2.toNat]) (fun _ => [vd.toNat])
    fun s =>
      let v := s.core.vec
      let geo := v.geometry
      wholesale geo (.mask vd.toNat) s.vl fun i => some (if v.maskBit geo vs2.toNat i then 0 else 1, 0)

end Sys2Proof.Machine
end

