-- ==== Sys2Proof/Machine/VecPerm.lean ====
section
/-! DEFINITION. The vector permutations and moves (05_vector_integer R126 to R133): custom-0 funct6 0x1D to 0x1F. -/

namespace Sys2Proof.Machine

/-- vperm: gathers by index; an index at or above cap gives zero (R126). -/
def execVpermVv (vd vs2 vs1 : BitVec 5) (vm : BitVec 1) : State → Host.Outcome State Fault Refusal :=
  vectorOp (fun _ => maskOk vm vd.toNat && vd != vs2 && vd != vs1)
    (fun _ => [vs2.toNat, vs1.toNat] ++ maskReads vm) (fun _ => [vd.toNat])
    fun s =>
      let v := s.core.vec
      let geo := v.geometry
      let w := s.sew
      wholesale geo (.elems w vd.toNat 1) s.vl fun i =>
        if v.active geo vm i then
          let k := v.elem geo w vs1.toNat i
          some (if k < geo.cap w 1 then v.elem geo w vs2.toNat k else 0, 0)
        else none

/-- vlut: looks an index up in the table held in the element's own lane (R127). -/
def execVlutVv (vd vs2 vs1 : BitVec 5) (vm : BitVec 1) : State → Host.Outcome State Fault Refusal :=
  vectorOp (fun _ => maskOk vm vd.toNat && vd != vs2 && vd != vs1)
    (fun _ => [vs2.toNat, vs1.toNat] ++ maskReads vm) (fun _ => [vd.toNat])
    fun s =>
      let v := s.core.vec
      let geo := v.geometry
      let w := s.sew
      elementwise geo (.elems w vd.toNat 1) fun i =>
        if v.active geo vm i then
          let k := v.elem geo w vs1.toNat i
          some (if k < 16384 / geo.n / w then v.elem geo w vs2.toNat (i % geo.g + geo.g * k) else 0, 0)
        else none

/-- vslide by a signed amount (R128). -/
def slideVector (amount : State → Int) (vd vs2 : BitVec 5) (vm : BitVec 1) : State → Host.Outcome State Fault Refusal :=
  vectorOp (fun _ => maskOk vm vd.toNat && vd != vs2) (fun _ => vs2.toNat :: maskReads vm) (fun _ => [vd.toNat])
    fun s =>
      let v := s.core.vec
      let geo := v.geometry
      let w := s.sew
      let d := amount s
      elementwise geo (.elems w vd.toNat 1) fun i =>
        if !v.active geo vm i then none
        else if d < 0 then
          let j := i + d.natAbs
          some (if j < geo.cap w 1 then v.elem geo w vs2.toNat j else 0, 0)
        else if d.natAbs ≤ i then some (v.elem geo w vs2.toNat (i - d.natAbs), 0)
        else none

/-- vslide.vx (R128). -/
def execVslideVx (vd vs2 rs1 : BitVec 5) (vm : BitVec 1) : State → Host.Outcome State Fault Refusal :=
  slideVector (fun s => (s.x rs1).toInt) vd vs2 vm

/-- vslide.vi (R128). -/
def execVslideVi (vd vs2 imm : BitVec 5) (vm : BitVec 1) : State → Host.Outcome State Fault Refusal :=
  slideVector (fun _ => imm.toInt) vd vs2 vm

/-- vcompress: packs the elements whose bit of v0 is one; the rest is tail (R129). -/
def execVcompress (vd vs2 : BitVec 5) : State → Host.Outcome State Fault Refusal :=
  vectorOp (fun _ => vd != 0 && vd != vs2) (fun _ => [vs2.toNat, 0]) (fun _ => [vd.toNat])
    fun s =>
      let v := s.core.vec
      let geo := v.geometry
      let w := s.sew
      let kept := (List.range s.vl).filter (v.maskBit geo 0)
      wholesale geo (.elems w vd.toNat 1) kept.length fun k => some (v.elem geo w vs2.toNat (kept.getD k 0), 0)

/-- vexpand: spreads elements over the places whose bit of v0 is one (R129). -/
def execVexpand (vd vs2 : BitVec 5) : State → Host.Outcome State Fault Refusal :=
  vectorOp (fun _ => vd != 0 && vd != vs2) (fun _ => [vs2.toNat, 0]) (fun _ => [vd.toNat])
    fun s =>
      let v := s.core.vec
      let geo := v.geometry
      let w := s.sew
      wholesale geo (.elems w vd.toNat 1) s.vl fun i =>
        if v.maskBit geo 0 i then
          some (v.elem geo w vs2.toNat ((List.range i).filter (v.maskBit geo 0)).length, 0)
        else none

/-- vunpk: bit fields of 2^imm[2:0] bits, zero-extended or sign-extended (R130). -/
def execVunpk (vd vs2 : BitVec 5) (imm : BitVec 4) (vm : BitVec 1) : State → Host.Outcome State Fault Refusal :=
  let fw := 2 ^ (imm.toNat % 8)
  vectorOp (fun s => maskOk vm vd.toNat && vd != vs2 && decide (fw ≤ s.sew))
    (fun _ => vs2.toNat :: maskReads vm) (fun _ => [vd.toNat])
    fun s =>
      let v := s.core.vec
      let geo := v.geometry
      let w := s.sew
      wholesale geo (.elems w vd.toNat 1) s.vl fun i =>
        if v.active geo vm i then
          let p := i * fw
          let f := v.elem geo w vs2.toNat (p / w) / 2 ^ (p % w) % 2 ^ fw
          some (if imm.getLsbD 3 then wrap w (signed fw f) else f, 0)
        else none

/-- vreshape: transposes a matrix of 2^imm columns; elements beyond it are copied (R131). -/
def execVreshape (vd vs2 imm : BitVec 5) (vm : BitVec 1) : State → Host.Outcome State Fault Refusal :=
  vectorOp (fun _ => maskOk vm vd.toNat && vd != vs2) (fun _ => vs2.toNat :: maskReads vm) (fun _ => [vd.toNat])
    fun s =>
      let v := s.core.vec
      let geo := v.geometry
      let w := s.sew
      let nc := 2 ^ imm.toNat
      let nr := s.vl / nc
      wholesale geo (.elems w vd.toNat 1) s.vl fun i =>
        if v.active geo vm i then
          some (v.elem geo w vs2.toNat (if i < nr * nc then i % nr * nc + i / nr else i), 0)
        else none

/-- vmv.v: copies the second operand (R132). -/
def moveVector (b : State → Operand) (vd : BitVec 5) : State → Host.Outcome State Fault Refusal :=
  vectorOp (fun _ => true) (fun s => (b s).reads) (fun _ => [vd.toNat])
    fun s =>
      let v := s.core.vec
      let geo := v.geometry
      let w := s.sew
      elementwise geo (.elems w vd.toNat 1) fun i => some ((b s).at v geo w i, 0)

/-- vmv.v.v (R132). -/
def execVmvVV (vd vs1 : BitVec 5) : State → Host.Outcome State Fault Refusal :=
  moveVector (fun _ => .vec vs1.toNat) vd

/-- vmv.v.x (R132). -/
def execVmvVX (vd rs1 : BitVec 5) : State → Host.Outcome State Fault Refusal :=
  moveVector (fun s => s.xOperand rs1) vd

/-- vmerge: chooses by v0 and writes every element of the body (R132). -/
def mergeVector (b : State → Operand) (vd vs2 : BitVec 5) : State → Host.Outcome State Fault Refusal :=
  vectorOp (fun _ => vd != 0) (fun s => vs2.toNat :: (b s).reads ++ [0]) (fun _ => [vd.toNat])
    fun s =>
      let v := s.core.vec
      let geo := v.geometry
      let w := s.sew
      elementwise geo (.elems w vd.toNat 1) fun i =>
        some (if v.maskBit geo 0 i then (b s).at v geo w i else v.elem geo w vs2.toNat i, 0)

/-- vmerge.vvm (R132). -/
def execVmergeVvm (vd vs2 vs1 : BitVec 5) : State → Host.Outcome State Fault Refusal :=
  mergeVector (fun _ => .vec vs1.toNat) vd vs2

/-- vmerge.vxm (R132). -/
def execVmergeVxm (vd vs2 rs1 : BitVec 5) : State → Host.Outcome State Fault Refusal :=
  mergeVector (fun s => s.xOperand rs1) vd vs2

/-- vmv.x.s: element 0, sign-extended, whatever kvl and kvstart hold (R133). While kvcfg.G is 0, for which R21 places no
element, it is slot 0 of the lane at position 0 (DESIGN CHOICE, log entry 65). -/
def execVmvXS (rd vs2 : BitVec 5) : State → Host.Outcome State Fault Refusal :=
  vectorOp (fun _ => true) (fun _ => [vs2.toNat]) (fun _ => [])
    fun s => do
      let v := s.core.vec
      putX rd (sext s.sew (v.elem v.geometry s.sew vs2.toNat 0))
      modify (State.setVstart 0)

/-- vmv.s.x: element 0 where kvstart = 0 < kvl; the others are tail (R133). -/
def execVmvSX (vd rs1 : BitVec 5) : State → Host.Outcome State Fault Refusal :=
  vectorOp (fun _ => true) (fun _ => []) (fun _ => [vd.toNat])
    fun s => do
      let geo := s.core.vec.geometry
      if s.vstart = 0 && s.vl ≠ 0 then
        modify fun t =>
          (t.commit geo (.elems s.sew vd.toNat 1) 0 (some ((s.x rs1).toNat % 2 ^ s.sew, 0))).writeTail geo
            (.elems s.sew vd.toNat 1) 1
      modify (State.setVstart 0)

end Sys2Proof.Machine
end

