-- ==== Sys2Proof/Machine/Dispatch.lean ====
section
/-! DEFINITION. One arm for each constructor of Instr: the one direct call of its meaning. -/

namespace Sys2Proof.Machine

/-- The meaning of every row of the opcode table. -/
def exec (i : Instr) (s : State) : Host.Outcome State Fault Refusal :=
  match i with
  | .lui rd imm => Sys2Proof.Machine.execLui rd imm s
  | .auipc rd imm => Sys2Proof.Machine.execAuipc rd imm s
  | .jal rd off => Sys2Proof.Machine.execJal rd off s
  | .jalr rd rs1 imm => Sys2Proof.Machine.execJalr rd rs1 imm s
  | .beq rs1 rs2 off => Sys2Proof.Machine.execBeq rs1 rs2 off s
  | .bne rs1 rs2 off => Sys2Proof.Machine.execBne rs1 rs2 off s
  | .blt rs1 rs2 off => Sys2Proof.Machine.execBlt rs1 rs2 off s
  | .bge rs1 rs2 off => Sys2Proof.Machine.execBge rs1 rs2 off s
  | .bltu rs1 rs2 off => Sys2Proof.Machine.execBltu rs1 rs2 off s
  | .bgeu rs1 rs2 off => Sys2Proof.Machine.execBgeu rs1 rs2 off s
  | .lb rd rs1 imm => Sys2Proof.Machine.execLb rd rs1 imm s
  | .lh rd rs1 imm => Sys2Proof.Machine.execLh rd rs1 imm s
  | .lw rd rs1 imm => Sys2Proof.Machine.execLw rd rs1 imm s
  | .ld rd rs1 imm => Sys2Proof.Machine.execLd rd rs1 imm s
  | .lbu rd rs1 imm => Sys2Proof.Machine.execLbu rd rs1 imm s
  | .lhu rd rs1 imm => Sys2Proof.Machine.execLhu rd rs1 imm s
  | .lwu rd rs1 imm => Sys2Proof.Machine.execLwu rd rs1 imm s
  | .sb rs1 rs2 imm => Sys2Proof.Machine.execSb rs1 rs2 imm s
  | .sh rs1 rs2 imm => Sys2Proof.Machine.execSh rs1 rs2 imm s
  | .sw rs1 rs2 imm => Sys2Proof.Machine.execSw rs1 rs2 imm s
  | .sd rs1 rs2 imm => Sys2Proof.Machine.execSd rs1 rs2 imm s
  | .addi rd rs1 imm => Sys2Proof.Machine.execAddi rd rs1 imm s
  | .slti rd rs1 imm => Sys2Proof.Machine.execSlti rd rs1 imm s
  | .sltiu rd rs1 imm => Sys2Proof.Machine.execSltiu rd rs1 imm s
  | .xori rd rs1 imm => Sys2Proof.Machine.execXori rd rs1 imm s
  | .ori rd rs1 imm => Sys2Proof.Machine.execOri rd rs1 imm s
  | .andi rd rs1 imm => Sys2Proof.Machine.execAndi rd rs1 imm s
  | .slli rd rs1 shamt => Sys2Proof.Machine.execSlli rd rs1 shamt s
  | .srli rd rs1 shamt => Sys2Proof.Machine.execSrli rd rs1 shamt s
  | .srai rd rs1 shamt => Sys2Proof.Machine.execSrai rd rs1 shamt s
  | .addiw rd rs1 imm => Sys2Proof.Machine.execAddiw rd rs1 imm s
  | .slliw rd rs1 shamt => Sys2Proof.Machine.execSlliw rd rs1 shamt s
  | .srliw rd rs1 shamt => Sys2Proof.Machine.execSrliw rd rs1 shamt s
  | .sraiw rd rs1 shamt => Sys2Proof.Machine.execSraiw rd rs1 shamt s
  | .add rd rs1 rs2 => Sys2Proof.Machine.execAdd rd rs1 rs2 s
  | .sll rd rs1 rs2 => Sys2Proof.Machine.execSll rd rs1 rs2 s
  | .slt rd rs1 rs2 => Sys2Proof.Machine.execSlt rd rs1 rs2 s
  | .sltu rd rs1 rs2 => Sys2Proof.Machine.execSltu rd rs1 rs2 s
  | .xor rd rs1 rs2 => Sys2Proof.Machine.execXor rd rs1 rs2 s
  | .srl rd rs1 rs2 => Sys2Proof.Machine.execSrl rd rs1 rs2 s
  | .or rd rs1 rs2 => Sys2Proof.Machine.execOr rd rs1 rs2 s
  | .and rd rs1 rs2 => Sys2Proof.Machine.execAnd rd rs1 rs2 s
  | .sub rd rs1 rs2 => Sys2Proof.Machine.execSub rd rs1 rs2 s
  | .sra rd rs1 rs2 => Sys2Proof.Machine.execSra rd rs1 rs2 s
  | .mul rd rs1 rs2 => Sys2Proof.Machine.execMul rd rs1 rs2 s
  | .mulh rd rs1 rs2 => Sys2Proof.Machine.execMulh rd rs1 rs2 s
  | .mulhsu rd rs1 rs2 => Sys2Proof.Machine.execMulhsu rd rs1 rs2 s
  | .mulhu rd rs1 rs2 => Sys2Proof.Machine.execMulhu rd rs1 rs2 s
  | .div rd rs1 rs2 => Sys2Proof.Machine.execDiv rd rs1 rs2 s
  | .divu rd rs1 rs2 => Sys2Proof.Machine.execDivu rd rs1 rs2 s
  | .rem rd rs1 rs2 => Sys2Proof.Machine.execRem rd rs1 rs2 s
  | .remu rd rs1 rs2 => Sys2Proof.Machine.execRemu rd rs1 rs2 s
  | .addw rd rs1 rs2 => Sys2Proof.Machine.execAddw rd rs1 rs2 s
  | .sllw rd rs1 rs2 => Sys2Proof.Machine.execSllw rd rs1 rs2 s
  | .srlw rd rs1 rs2 => Sys2Proof.Machine.execSrlw rd rs1 rs2 s
  | .subw rd rs1 rs2 => Sys2Proof.Machine.execSubw rd rs1 rs2 s
  | .sraw rd rs1 rs2 => Sys2Proof.Machine.execSraw rd rs1 rs2 s
  | .mulw rd rs1 rs2 => Sys2Proof.Machine.execMulw rd rs1 rs2 s
  | .divw rd rs1 rs2 => Sys2Proof.Machine.execDivw rd rs1 rs2 s
  | .divuw rd rs1 rs2 => Sys2Proof.Machine.execDivuw rd rs1 rs2 s
  | .remw rd rs1 rs2 => Sys2Proof.Machine.execRemw rd rs1 rs2 s
  | .remuw rd rs1 rs2 => Sys2Proof.Machine.execRemuw rd rs1 rs2 s
  | .fence fm pred succ rs1 rd => Sys2Proof.Machine.execFence fm pred succ rs1 rd s
  | .fenceI rd rs1 imm => Sys2Proof.Machine.execFenceI rd rs1 imm s
  | .amoaddW rd rs1 rs2 aq rl => Sys2Proof.Machine.execAmoaddW rd rs1 rs2 aq rl s
  | .amoaddD rd rs1 rs2 aq rl => Sys2Proof.Machine.execAmoaddD rd rs1 rs2 aq rl s
  | .amoswapW rd rs1 rs2 aq rl => Sys2Proof.Machine.execAmoswapW rd rs1 rs2 aq rl s
  | .amoswapD rd rs1 rs2 aq rl => Sys2Proof.Machine.execAmoswapD rd rs1 rs2 aq rl s
  | .lrW rd rs1 aq rl => Sys2Proof.Machine.execLrW rd rs1 aq rl s
  | .lrD rd rs1 aq rl => Sys2Proof.Machine.execLrD rd rs1 aq rl s
  | .scW rd rs1 rs2 aq rl => Sys2Proof.Machine.execScW rd rs1 rs2 aq rl s
  | .scD rd rs1 rs2 aq rl => Sys2Proof.Machine.execScD rd rs1 rs2 aq rl s
  | .amoxorW rd rs1 rs2 aq rl => Sys2Proof.Machine.execAmoxorW rd rs1 rs2 aq rl s
  | .amoxorD rd rs1 rs2 aq rl => Sys2Proof.Machine.execAmoxorD rd rs1 rs2 aq rl s
  | .amoorW rd rs1 rs2 aq rl => Sys2Proof.Machine.execAmoorW rd rs1 rs2 aq rl s
  | .amoorD rd rs1 rs2 aq rl => Sys2Proof.Machine.execAmoorD rd rs1 rs2 aq rl s
  | .amoandW rd rs1 rs2 aq rl => Sys2Proof.Machine.execAmoandW rd rs1 rs2 aq rl s
  | .amoandD rd rs1 rs2 aq rl => Sys2Proof.Machine.execAmoandD rd rs1 rs2 aq rl s
  | .amominW rd rs1 rs2 aq rl => Sys2Proof.Machine.execAmominW rd rs1 rs2 aq rl s
  | .amominD rd rs1 rs2 aq rl => Sys2Proof.Machine.execAmominD rd rs1 rs2 aq rl s
  | .amomaxW rd rs1 rs2 aq rl => Sys2Proof.Machine.execAmomaxW rd rs1 rs2 aq rl s
  | .amomaxD rd rs1 rs2 aq rl => Sys2Proof.Machine.execAmomaxD rd rs1 rs2 aq rl s
  | .amominuW rd rs1 rs2 aq rl => Sys2Proof.Machine.execAmominuW rd rs1 rs2 aq rl s
  | .amominuD rd rs1 rs2 aq rl => Sys2Proof.Machine.execAmominuD rd rs1 rs2 aq rl s
  | .amomaxuW rd rs1 rs2 aq rl => Sys2Proof.Machine.execAmomaxuW rd rs1 rs2 aq rl s
  | .amomaxuD rd rs1 rs2 aq rl => Sys2Proof.Machine.execAmomaxuD rd rs1 rs2 aq rl s
  | .ecall => Sys2Proof.Machine.execEcall s
  | .ebreak => Sys2Proof.Machine.execEbreak s
  | .sret => Sys2Proof.Machine.execSret s
  | .mret => Sys2Proof.Machine.execMret s
  | .wfi => Sys2Proof.Machine.execWfi s
  | .sfenceVma rs1 rs2 => Sys2Proof.Machine.execSfenceVma rs1 rs2 s
  | .csrrw rd rs1 csr => Sys2Proof.Machine.execCsrrw rd rs1 csr s
  | .csrrs rd rs1 csr => Sys2Proof.Machine.execCsrrs rd rs1 csr s
  | .csrrc rd rs1 csr => Sys2Proof.Machine.execCsrrc rd rs1 csr s
  | .csrrwi rd uimm csr => Sys2Proof.Machine.execCsrrwi rd uimm csr s
  | .csrrsi rd uimm csr => Sys2Proof.Machine.execCsrrsi rd uimm csr s
  | .csrrci rd uimm csr => Sys2Proof.Machine.execCsrrci rd uimm csr s
  | .flw rd rs1 imm => Sys2Proof.Machine.execFlw rd rs1 imm s
  | .fsw rs1 rs2 imm => Sys2Proof.Machine.execFsw rs1 rs2 imm s
  | .fmaddS rd rs1 rs2 rs3 rm => Sys2Proof.Machine.execFmaddS rd rs1 rs2 rs3 rm s
  | .fmsubS rd rs1 rs2 rs3 rm => Sys2Proof.Machine.execFmsubS rd rs1 rs2 rs3 rm s
  | .fnmsubS rd rs1 rs2 rs3 rm => Sys2Proof.Machine.execFnmsubS rd rs1 rs2 rs3 rm s
  | .fnmaddS rd rs1 rs2 rs3 rm => Sys2Proof.Machine.execFnmaddS rd rs1 rs2 rs3 rm s
  | .faddS rd rs1 rs2 rm => Sys2Proof.Machine.execFaddS rd rs1 rs2 rm s
  | .fsubS rd rs1 rs2 rm => Sys2Proof.Machine.execFsubS rd rs1 rs2 rm s
  | .fmulS rd rs1 rs2 rm => Sys2Proof.Machine.execFmulS rd rs1 rs2 rm s
  | .fdivS rd rs1 rs2 rm => Sys2Proof.Machine.execFdivS rd rs1 rs2 rm s
  | .fsqrtS rd rs1 rm => Sys2Proof.Machine.execFsqrtS rd rs1 rm s
  | .fsgnjS rd rs1 rs2 => Sys2Proof.Machine.execFsgnjS rd rs1 rs2 s
  | .fsgnjnS rd rs1 rs2 => Sys2Proof.Machine.execFsgnjnS rd rs1 rs2 s
  | .fsgnjxS rd rs1 rs2 => Sys2Proof.Machine.execFsgnjxS rd rs1 rs2 s
  | .fminS rd rs1 rs2 => Sys2Proof.Machine.execFminS rd rs1 rs2 s
  | .fmaxS rd rs1 rs2 => Sys2Proof.Machine.execFmaxS rd rs1 rs2 s
  | .fleS rd rs1 rs2 => Sys2Proof.Machine.execFleS rd rs1 rs2 s
  | .fltS rd rs1 rs2 => Sys2Proof.Machine.execFltS rd rs1 rs2 s
  | .feqS rd rs1 rs2 => Sys2Proof.Machine.execFeqS rd rs1 rs2 s
  | .fcvtWS rd rs1 rm => Sys2Proof.Machine.execFcvtWS rd rs1 rm s
  | .fcvtWuS rd rs1 rm => Sys2Proof.Machine.execFcvtWuS rd rs1 rm s
  | .fcvtLS rd rs1 rm => Sys2Proof.Machine.execFcvtLS rd rs1 rm s
  | .fcvtLuS rd rs1 rm => Sys2Proof.Machine.execFcvtLuS rd rs1 rm s
  | .fcvtSW rd rs1 rm => Sys2Proof.Machine.execFcvtSW rd rs1 rm s
  | .fcvtSWu rd rs1 rm => Sys2Proof.Machine.execFcvtSWu rd rs1 rm s
  | .fcvtSL rd rs1 rm => Sys2Proof.Machine.execFcvtSL rd rs1 rm s
  | .fcvtSLu rd rs1 rm => Sys2Proof.Machine.execFcvtSLu rd rs1 rm s
  | .fmvXW rd rs1 => Sys2Proof.Machine.execFmvXW rd rs1 s
  | .fclassS rd rs1 => Sys2Proof.Machine.execFclassS rd rs1 s
  | .fmvWX rd rs1 => Sys2Proof.Machine.execFmvWX rd rs1 s
  | .nonInstructionWord word => Sys2Proof.Machine.execNonInstructionWord word s
  | .kclock rd => Sys2Proof.Machine.execKclock rd s
  | .kident rd sel => Sys2Proof.Machine.execKident rd sel s
  | .cspawn rd rs1 => Sys2Proof.Machine.execCspawn rd rs1 s
  | .cjoin rd rs1 => Sys2Proof.Machine.execCjoin rd rs1 s
  | .stclaim rd => Sys2Proof.Machine.execStclaim rd s
  | .cfinish => Sys2Proof.Machine.execCfinish s
  | .cyield rd => Sys2Proof.Machine.execCyield rd s
  | .rgnmake rd rs1 rs2 => Sys2Proof.Machine.execRgnmake rd rs1 rs2 s
  | .rgnsync rd rs1 rs2 => Sys2Proof.Machine.execRgnsync rd rs1 rs2 s
  | .cinfo rd sel => Sys2Proof.Machine.execCinfo rd sel s
  | .selection core => Sys2Proof.Machine.execSelection core s
  | .dispatch core => Sys2Proof.Machine.execDispatch core s
  | .preemptionRequest record victim => Sys2Proof.Machine.execPreemptionRequest record victim s
  | .interruptTrap core groups => Sys2Proof.Machine.execInterruptTrap core groups s
  | .quiesceStop core => Sys2Proof.Machine.execQuiesceStop core s
  | .faultReport domain => Sys2Proof.Machine.execFaultReport domain s
  | .vcfg rd rs1 rs2 => Sys2Proof.Machine.execVcfg rd rs1 rs2 s
  | .vregs rd code => Sys2Proof.Machine.execVregs rd code s
  | .vcfgi rd rs1 cfg => Sys2Proof.Machine.execVcfgi rd rs1 cfg s
  | .vaddVv vd vs2 vs1 vm => Sys2Proof.Machine.execVaddVv vd vs2 vs1 vm s
  | .vaddVx vd vs2 rs1 vm => Sys2Proof.Machine.execVaddVx vd vs2 rs1 vm s
  | .vaddVi vd vs2 imm vm => Sys2Proof.Machine.execVaddVi vd vs2 imm vm s
  | .vaddVs vd vs2 vs1 vm => Sys2Proof.Machine.execVaddVs vd vs2 vs1 vm s
  | .vsubVv vd vs2 vs1 vm => Sys2Proof.Machine.execVsubVv vd vs2 vs1 vm s
  | .vrsubVx vd vs2 rs1 vm => Sys2Proof.Machine.execVrsubVx vd vs2 rs1 vm s
  | .vrsubVi vd vs2 imm vm => Sys2Proof.Machine.execVrsubVi vd vs2 imm vm s
  | .vminuVv vd vs2 vs1 vm => Sys2Proof.Machine.execVminuVv vd vs2 vs1 vm s
  | .vminuVx vd vs2 rs1 vm => Sys2Proof.Machine.execVminuVx vd vs2 rs1 vm s
  | .vminuVs vd vs2 vs1 vm => Sys2Proof.Machine.execVminuVs vd vs2 vs1 vm s
  | .vminVv vd vs2 vs1 vm => Sys2Proof.Machine.execVminVv vd vs2 vs1 vm s
  | .vminVx vd vs2 rs1 vm => Sys2Proof.Machine.execVminVx vd vs2 rs1 vm s
  | .vminVs vd vs2 vs1 vm => Sys2Proof.Machine.execVminVs vd vs2 vs1 vm s
  | .vmaxuVv vd vs2 vs1 vm => Sys2Proof.Machine.execVmaxuVv vd vs2 vs1 vm s
  | .vmaxuVx vd vs2 rs1 vm => Sys2Proof.Machine.execVmaxuVx vd vs2 rs1 vm s
  | .vmaxuVs vd vs2 vs1 vm => Sys2Proof.Machine.execVmaxuVs vd vs2 vs1 vm s
  | .vmaxVv vd vs2 vs1 vm => Sys2Proof.Machine.execVmaxVv vd vs2 vs1 vm s
  | .vmaxVx vd vs2 rs1 vm => Sys2Proof.Machine.execVmaxVx vd vs2 rs1 vm s
  | .vmaxVs vd vs2 vs1 vm => Sys2Proof.Machine.execVmaxVs vd vs2 vs1 vm s
  | .vandVv vd vs2 vs1 vm => Sys2Proof.Machine.execVandVv vd vs2 vs1 vm s
  | .vandVx vd vs2 rs1 vm => Sys2Proof.Machine.execVandVx vd vs2 rs1 vm s
  | .vandVi vd vs2 imm vm => Sys2Proof.Machine.execVandVi vd vs2 imm vm s
  | .vandMm vd vs2 vs1 => Sys2Proof.Machine.execVandMm vd vs2 vs1 s
  | .vandVs vd vs2 vs1 vm => Sys2Proof.Machine.execVandVs vd vs2 vs1 vm s
  | .vorVv vd vs2 vs1 vm => Sys2Proof.Machine.execVorVv vd vs2 vs1 vm s
  | .vorVx vd vs2 rs1 vm => Sys2Proof.Machine.execVorVx vd vs2 rs1 vm s
  | .vorVi vd vs2 imm vm => Sys2Proof.Machine.execVorVi vd vs2 imm vm s
  | .vorMm vd vs2 vs1 => Sys2Proof.Machine.execVorMm vd vs2 vs1 s
  | .vorVs vd vs2 vs1 vm => Sys2Proof.Machine.execVorVs vd vs2 vs1 vm s
  | .vxorVv vd vs2 vs1 vm => Sys2Proof.Machine.execVxorVv vd vs2 vs1 vm s
  | .vxorVx vd vs2 rs1 vm => Sys2Proof.Machine.execVxorVx vd vs2 rs1 vm s
  | .vxorVi vd vs2 imm vm => Sys2Proof.Machine.execVxorVi vd vs2 imm vm s
  | .vxorMm vd vs2 vs1 => Sys2Proof.Machine.execVxorMm vd vs2 vs1 s
  | .vxorVs vd vs2 vs1 vm => Sys2Proof.Machine.execVxorVs vd vs2 vs1 vm s
  | .vsllVv vd vs2 vs1 vm => Sys2Proof.Machine.execVsllVv vd vs2 vs1 vm s
  | .vsllVx vd vs2 rs1 vm => Sys2Proof.Machine.execVsllVx vd vs2 rs1 vm s
  | .vsllVi vd vs2 imm vm => Sys2Proof.Machine.execVsllVi vd vs2 imm vm s
  | .vsrlVv vd vs2 vs1 vm => Sys2Proof.Machine.execVsrlVv vd vs2 vs1 vm s
  | .vsrlVx vd vs2 rs1 vm => Sys2Proof.Machine.execVsrlVx vd vs2 rs1 vm s
  | .vsrlVi vd vs2 imm vm => Sys2Proof.Machine.execVsrlVi vd vs2 imm vm s
  | .vnclipuWv vd vs2 vs1 vm => Sys2Proof.Machine.execVnclipuWv vd vs2 vs1 vm s
  | .vsraVv vd vs2 vs1 vm => Sys2Proof.Machine.execVsraVv vd vs2 vs1 vm s
  | .vsraVx vd vs2 rs1 vm => Sys2Proof.Machine.execVsraVx vd vs2 rs1 vm s
  | .vsraVi vd vs2 imm vm => Sys2Proof.Machine.execVsraVi vd vs2 imm vm s
  | .vnclipWv vd vs2 vs1 vm => Sys2Proof.Machine.execVnclipWv vd vs2 vs1 vm s
  | .vmulVv vd vs2 vs1 vm => Sys2Proof.Machine.execVmulVv vd vs2 vs1 vm s
  | .vmulVx vd vs2 rs1 vm => Sys2Proof.Machine.execVmulVx vd vs2 rs1 vm s
  | .vmulhVv vd vs2 vs1 vm => Sys2Proof.Machine.execVmulhVv vd vs2 vs1 vm s
  | .vmulhVx vd vs2 rs1 vm => Sys2Proof.Machine.execVmulhVx vd vs2 rs1 vm s
  | .vmaccVv vd vs2 vs1 vm => Sys2Proof.Machine.execVmaccVv vd vs2 vs1 vm s
  | .vmaccVx vd vs2 rs1 vm => Sys2Proof.Machine.execVmaccVx vd vs2 rs1 vm s
  | .vdot4Vv vd vs2 vs1 vm => Sys2Proof.Machine.execVdot4Vv vd vs2 vs1 vm s
  | .vdot4Vx vd vs2 rs1 vm => Sys2Proof.Machine.execVdot4Vx vd vs2 rs1 vm s
  | .vdivuVv vd vs2 vs1 vm => Sys2Proof.Machine.execVdivuVv vd vs2 vs1 vm s
  | .vdivuVx vd vs2 rs1 vm => Sys2Proof.Machine.execVdivuVx vd vs2 rs1 vm s
  | .vdivVv vd vs2 vs1 vm => Sys2Proof.Machine.execVdivVv vd vs2 vs1 vm s
  | .vdivVx vd vs2 rs1 vm => Sys2Proof.Machine.execVdivVx vd vs2 rs1 vm s
  | .vremuVv vd vs2 vs1 vm => Sys2Proof.Machine.execVremuVv vd vs2 vs1 vm s
  | .vremuVx vd vs2 rs1 vm => Sys2Proof.Machine.execVremuVx vd vs2 rs1 vm s
  | .vremVv vd vs2 vs1 vm => Sys2Proof.Machine.execVremVv vd vs2 vs1 vm s
  | .vremVx vd vs2 rs1 vm => Sys2Proof.Machine.execVremVx vd vs2 rs1 vm s
  | .vsadduVv vd vs2 vs1 vm => Sys2Proof.Machine.execVsadduVv vd vs2 vs1 vm s
  | .vsadduVx vd vs2 rs1 vm => Sys2Proof.Machine.execVsadduVx vd vs2 rs1 vm s
  | .vsadduVi vd vs2 imm vm => Sys2Proof.Machine.execVsadduVi vd vs2 imm vm s
  | .vsaddVv vd vs2 vs1 vm => Sys2Proof.Machine.execVsaddVv vd vs2 vs1 vm s
  | .vsaddVx vd vs2 rs1 vm => Sys2Proof.Machine.execVsaddVx vd vs2 rs1 vm s
  | .vsaddVi vd vs2 imm vm => Sys2Proof.Machine.execVsaddVi vd vs2 imm vm s
  | .vssubuVv vd vs2 vs1 vm => Sys2Proof.Machine.execVssubuVv vd vs2 vs1 vm s
  | .vssubuVx vd vs2 rs1 vm => Sys2Proof.Machine.execVssubuVx vd vs2 rs1 vm s
  | .vssubVv vd vs2 vs1 vm => Sys2Proof.Machine.execVssubVv vd vs2 vs1 vm s
  | .vssubVx vd vs2 rs1 vm => Sys2Proof.Machine.execVssubVx vd vs2 rs1 vm s
  | .vcmpVv cc md vs2 vs1 vm => Sys2Proof.Machine.execVcmpVv cc md vs2 vs1 vm s
  | .vcmpVx cc md vs2 rs1 vm => Sys2Proof.Machine.execVcmpVx cc md vs2 rs1 vm s
  | .vcmpVi cc md vs2 imm vm => Sys2Proof.Machine.execVcmpVi cc md vs2 imm vm s
  | .vwadduVv vd vs2 vs1 vm => Sys2Proof.Machine.execVwadduVv vd vs2 vs1 vm s
  | .vwadduVx vd vs2 rs1 vm => Sys2Proof.Machine.execVwadduVx vd vs2 rs1 vm s
  | .vwadduWv vd vs2 vs1 vm => Sys2Proof.Machine.execVwadduWv vd vs2 vs1 vm s
  | .vwaddVv vd vs2 vs1 vm => Sys2Proof.Machine.execVwaddVv vd vs2 vs1 vm s
  | .vwaddVx vd vs2 rs1 vm => Sys2Proof.Machine.execVwaddVx vd vs2 rs1 vm s
  | .vwaddWv vd vs2 vs1 vm => Sys2Proof.Machine.execVwaddWv vd vs2 vs1 vm s
  | .vwmuluVv vd vs2 vs1 vm => Sys2Proof.Machine.execVwmuluVv vd vs2 vs1 vm s
  | .vwmuluVx vd vs2 rs1 vm => Sys2Proof.Machine.execVwmuluVx vd vs2 rs1 vm s
  | .vwmulVv vd vs2 vs1 vm => Sys2Proof.Machine.execVwmulVv vd vs2 vs1 vm s
  | .vwmulVx vd vs2 rs1 vm => Sys2Proof.Machine.execVwmulVx vd vs2 rs1 vm s
  | .vpermVv vd vs2 vs1 vm => Sys2Proof.Machine.execVpermVv vd vs2 vs1 vm s
  | .vslideVx vd vs2 rs1 vm => Sys2Proof.Machine.execVslideVx vd vs2 rs1 vm s
  | .vslideVi vd vs2 imm vm => Sys2Proof.Machine.execVslideVi vd vs2 imm vm s
  | .vmpopc rd vs2 vm => Sys2Proof.Machine.execVmpopc rd vs2 vm s
  | .vmfirst rd vs2 vm => Sys2Proof.Machine.execVmfirst rd vs2 vm s
  | .vmprefix vd vs2 vm => Sys2Proof.Machine.execVmprefix vd vs2 vm s
  | .viota vd vs2 vm => Sys2Proof.Machine.execViota vd vs2 vm s
  | .vid vd vm => Sys2Proof.Machine.execVid vd vm s
  | .vmnot vd vs2 => Sys2Proof.Machine.execVmnot vd vs2 s
  | .vlutVv vd vs2 vs1 vm => Sys2Proof.Machine.execVlutVv vd vs2 vs1 vm s
  | .vmvSX vd rs1 => Sys2Proof.Machine.execVmvSX vd rs1 s
  | .vunpk vd vs2 imm vm => Sys2Proof.Machine.execVunpk vd vs2 imm vm s
  | .vcompress vd vs2 => Sys2Proof.Machine.execVcompress vd vs2 s
  | .vexpand vd vs2 => Sys2Proof.Machine.execVexpand vd vs2 s
  | .vmvXS rd vs2 => Sys2Proof.Machine.execVmvXS rd vs2 s
  | .vmvVV vd vs1 => Sys2Proof.Machine.execVmvVV vd vs1 s
  | .vmergeVvm vd vs2 vs1 => Sys2Proof.Machine.execVmergeVvm vd vs2 vs1 s
  | .vmvVX vd rs1 => Sys2Proof.Machine.execVmvVX vd rs1 s
  | .vmergeVxm vd vs2 rs1 => Sys2Proof.Machine.execVmergeVxm vd vs2 rs1 s
  | .vreshape vd vs2 imm vm => Sys2Proof.Machine.execVreshape vd vs2 imm vm s
  | .vfaddVv vd vs2 vs1 vm => Sys2Proof.Machine.execVfaddVv vd vs2 vs1 vm s
  | .vfaddVf vd vs2 rs1 vm => Sys2Proof.Machine.execVfaddVf vd vs2 rs1 vm s
  | .vftsumVs vd vs2 vs1 vm => Sys2Proof.Machine.execVftsumVs vd vs2 vs1 vm s
  | .vfsubVv vd vs2 vs1 vm => Sys2Proof.Machine.execVfsubVv vd vs2 vs1 vm s
  | .vfsubVf vd vs2 rs1 vm => Sys2Proof.Machine.execVfsubVf vd vs2 rs1 vm s
  | .vfosumVs vd vs2 vs1 vm => Sys2Proof.Machine.execVfosumVs vd vs2 vs1 vm s
  | .vfmulVv vd vs2 vs1 vm => Sys2Proof.Machine.execVfmulVv vd vs2 vs1 vm s
  | .vfmulVf vd vs2 rs1 vm => Sys2Proof.Machine.execVfmulVf vd vs2 rs1 vm s
  | .vfdivVv vd vs2 vs1 vm => Sys2Proof.Machine.execVfdivVv vd vs2 vs1 vm s
  | .vfdivVf vd vs2 rs1 vm => Sys2Proof.Machine.execVfdivVf vd vs2 rs1 vm s
  | .vfminVv vd vs2 vs1 vm => Sys2Proof.Machine.execVfminVv vd vs2 vs1 vm s
  | .vfminVf vd vs2 rs1 vm => Sys2Proof.Machine.execVfminVf vd vs2 rs1 vm s
  | .vfminVs vd vs2 vs1 vm => Sys2Proof.Machine.execVfminVs vd vs2 vs1 vm s
  | .vfmaxVv vd vs2 vs1 vm => Sys2Proof.Machine.execVfmaxVv vd vs2 vs1 vm s
  | .vfmaxVf vd vs2 rs1 vm => Sys2Proof.Machine.execVfmaxVf vd vs2 rs1 vm s
  | .vfmaxVs vd vs2 vs1 vm => Sys2Proof.Machine.execVfmaxVs vd vs2 vs1 vm s
  | .vfmaccVv vd vs2 vs1 vm => Sys2Proof.Machine.execVfmaccVv vd vs2 vs1 vm s
  | .vfmaccVf vd vs2 rs1 vm => Sys2Proof.Machine.execVfmaccVf vd vs2 rs1 vm s
  | .vfmsacVv vd vs2 vs1 vm => Sys2Proof.Machine.execVfmsacVv vd vs2 vs1 vm s
  | .vfmsacVf vd vs2 rs1 vm => Sys2Proof.Machine.execVfmsacVf vd vs2 rs1 vm s
  | .vfnmaccVv vd vs2 vs1 vm => Sys2Proof.Machine.execVfnmaccVv vd vs2 vs1 vm s
  | .vfnmaccVf vd vs2 rs1 vm => Sys2Proof.Machine.execVfnmaccVf vd vs2 rs1 vm s
  | .vfnmsacVv vd vs2 vs1 vm => Sys2Proof.Machine.execVfnmsacVv vd vs2 vs1 vm s
  | .vfnmsacVf vd vs2 rs1 vm => Sys2Proof.Machine.execVfnmsacVf vd vs2 rs1 vm s
  | .vfsgnjVv vd vs2 vs1 vm => Sys2Proof.Machine.execVfsgnjVv vd vs2 vs1 vm s
  | .vfsgnjVf vd vs2 rs1 vm => Sys2Proof.Machine.execVfsgnjVf vd vs2 rs1 vm s
  | .vfsgnjnVv vd vs2 vs1 vm => Sys2Proof.Machine.execVfsgnjnVv vd vs2 vs1 vm s
  | .vfsgnjnVf vd vs2 rs1 vm => Sys2Proof.Machine.execVfsgnjnVf vd vs2 rs1 vm s
  | .vfcmpVv cc md vs2 vs1 vm => Sys2Proof.Machine.execVfcmpVv cc md vs2 vs1 vm s
  | .vfcmpVf cc md vs2 rs1 vm => Sys2Proof.Machine.execVfcmpVf cc md vs2 rs1 vm s
  | .vfsqrt vd vs2 vm => Sys2Proof.Machine.execVfsqrt vd vs2 vm s
  | .vfclass vd vs2 vm => Sys2Proof.Machine.execVfclass vd vs2 vm s
  | .vfexp2 vd vs2 vm => Sys2Proof.Machine.execVfexp2 vd vs2 vm s
  | .vfrcp vd vs2 vm => Sys2Proof.Machine.execVfrcp vd vs2 vm s
  | .vflog2 vd vs2 vm => Sys2Proof.Machine.execVflog2 vd vs2 vm s
  | .vfwmaccF16Vv vd vs2 vs1 vm => Sys2Proof.Machine.execVfwmaccF16Vv vd vs2 vs1 vm s
  | .vfwmaccF16Vf vd vs2 rs1 vm => Sys2Proof.Machine.execVfwmaccF16Vf vd vs2 rs1 vm s
  | .vfwmaccBf16Vv vd vs2 vs1 vm => Sys2Proof.Machine.execVfwmaccBf16Vv vd vs2 vs1 vm s
  | .vfwmaccBf16Vf vd vs2 rs1 vm => Sys2Proof.Machine.execVfwmaccBf16Vf vd vs2 rs1 vm s
  | .vfcvt vd vs2 sel rf vm => Sys2Proof.Machine.execVfcvt vd vs2 sel rf vm s
  | .vfwdotbs vd vs2 vs1 wf af vm => Sys2Proof.Machine.execVfwdotbs vd vs2 vs1 wf af vm s
  | .vseed rs1 => Sys2Proof.Machine.execVseed rs1 s
  | .vsbase rs1 => Sys2Proof.Machine.execVsbase rs1 s
  | .vsclVx rs1 => Sys2Proof.Machine.execVsclVx rs1 s
  | .vbq vd vs2 sr fmt => Sys2Proof.Machine.execVbq vd vs2 sr fmt s
  | .vbdq vd vs2 fmt vm => Sys2Proof.Machine.execVbdq vd vs2 fmt vm s
  | .vfredbs vd vs2 fmt vm => Sys2Proof.Machine.execVfredbs vd vs2 fmt vm s
  | .vscl vs2 => Sys2Proof.Machine.execVscl vs2 s
  | .vleE mu hint vd rs1 w vm => Sys2Proof.Machine.execVleE mu hint vd rs1 w vm s
  | .vseE mu hint vs3 rs1 w vm => Sys2Proof.Machine.execVseE mu hint vs3 rs1 w vm s
  | .vlseE mu hint vd rs1 rs2 w vm => Sys2Proof.Machine.execVlseE mu hint vd rs1 rs2 w vm s
  | .vsseE mu hint vs3 rs1 rs2 w vm => Sys2Proof.Machine.execVsseE mu hint vs3 rs1 rs2 w vm s
  | .vlxeE mu hint vd rs1 vs2 w vm => Sys2Proof.Machine.execVlxeE mu hint vd rs1 vs2 w vm s
  | .vsxeE mu hint vs3 rs1 vs2 w vm => Sys2Proof.Machine.execVsxeE mu hint vs3 rs1 vs2 w vm s
  | .vlt2E mu hint vd rs1 w vm => Sys2Proof.Machine.execVlt2E mu hint vd rs1 w vm s
  | .vst2E mu hint vs3 rs1 w vm => Sys2Proof.Machine.execVst2E mu hint vs3 rs1 w vm s
  | .vlr mu hint vd rs1 => Sys2Proof.Machine.execVlr mu hint vd rs1 s
  | .vsr mu hint vs3 rs1 => Sys2Proof.Machine.execVsr mu hint vs3 rs1 s
  | .loadLanded core index => Sys2Proof.Machine.execLoadLanded core index s
  | .vprefetch mu hint rs1 rs2 => Sys2Proof.Machine.execVprefetch mu hint rs1 rs2 s
  | .vresid mu hint rs1 rs2 => Sys2Proof.Machine.execVresid mu hint rs1 rs2 s
  | .mdiscard mu hint rs1 rs2 => Sys2Proof.Machine.execMdiscard mu hint rs1 rs2 s
  | .cclean mu hint rs1 rs2 => Sys2Proof.Machine.execCclean mu hint rs1 rs2 s
  | .cinval mu hint rs1 rs2 => Sys2Proof.Machine.execCinval mu hint rs1 rs2 s
  | .tlbinv mu hint rs1 rs2 => Sys2Proof.Machine.execTlbinv mu hint rs1 rs2 s
  | .l2conv mu hint rd rs1 => Sys2Proof.Machine.execL2conv mu hint rd rs1 s
  | .l2rest mu hint rd rs1 => Sys2Proof.Machine.execL2rest mu hint rd rs1 s
  | .pageRevival core va => Sys2Proof.Machine.execPageRevival core va s
  | .vamo op vd rs1 vs2 vm => Sys2Proof.Machine.execVamo op vd rs1 vs2 vm s
  | .vredmem op vs3 rs1 vm => Sys2Proof.Machine.execVredmem op vs3 rs1 vm s
  | .vglk vd rs1 vs2 vm => Sys2Proof.Machine.execVglk vd rs1 vs2 vm s
  | .vscc md vs3 rs1 vs2 vm => Sys2Proof.Machine.execVscc md vs3 rs1 vs2 vm s
  | .kfence pred succ scope => Sys2Proof.Machine.execKfence pred succ scope s
  | .vfencebar rd rs1 => Sys2Proof.Machine.execVfencebar rd rs1 s
  | .barinit rd rs1 rs2 => Sys2Proof.Machine.execBarinit rd rs1 rs2 s
  | .barwait rd rs1 rs2 => Sys2Proof.Machine.execBarwait rd rs1 rs2 s
  | .qdrain mask => Sys2Proof.Machine.execQdrain mask s
  | .reservationTimeout core => Sys2Proof.Machine.execReservationTimeout core s
  | .vectorReservationTimeout core index => Sys2Proof.Machine.execVectorReservationTimeout core index s
  | .tagScrub die slice => Sys2Proof.Machine.execTagScrub die slice s
  | .lmode mode => Sys2Proof.Machine.execLmode mode s
  | .lmodeDrained core => Sys2Proof.Machine.execLmodeDrained core s
  | .lmodeSwitchDone core => Sys2Proof.Machine.execLmodeSwitchDone core s
  | .mclaim slot => Sys2Proof.Machine.execMclaim slot s
  | .mclaimRx slot => Sys2Proof.Machine.execMclaimRx slot s
  | .mrelease slot => Sys2Proof.Machine.execMrelease slot s
  | .mtzero tile => Sys2Proof.Machine.execMtzero tile s
  | .mtdrain tile => Sys2Proof.Machine.execMtdrain tile s
  | .mchainTacc0 fmt rd rs1 rs2 => Sys2Proof.Machine.execMchainTacc0 fmt rd rs1 rs2 s
  | .mchainTacc1 fmt rd rs1 rs2 => Sys2Proof.Machine.execMchainTacc1 fmt rd rs1 rs2 s
  | .chainLanded core slot => Sys2Proof.Machine.execChainLanded core slot s
  | .mslotld slot rs1 => Sys2Proof.Machine.execMslotld slot rs1 s
  | .slotFilled core slot => Sys2Proof.Machine.execSlotFilled core slot s
  | .mwloadGroup0 wf slot => Sys2Proof.Machine.execMwloadGroup0 wf slot s
  | .mwloadGroup1 wf slot => Sys2Proof.Machine.execMwloadGroup1 wf slot s
  | .mtmv vd tile rs1 => Sys2Proof.Machine.execMtmv vd tile rs1 s
  | .mtmvc vd tile rs1 => Sys2Proof.Machine.execMtmvc vd tile rs1 s
  | .mvtm tile vs2 rs1 => Sys2Proof.Machine.execMvtm tile vs2 rs1 s
  | .mvtmc tile vs2 rs1 => Sys2Proof.Machine.execMvtmc tile vs2 rs1 s
  | .mopa g fm tile vs1 vs2 => Sys2Proof.Machine.execMopa g fm tile vs1 vs2 s
  | .mopak g fm tile vs1 vs2 => Sys2Proof.Machine.execMopak g fm tile vs1 vs2 s
  | .mws g fm tile vs1 => Sys2Proof.Machine.execMws g fm tile vs1 s
  | .mtbcast rd rs1 rs2 => Sys2Proof.Machine.execMtbcast rd rs1 rs2 s
  | .mtwait rd rs1 => Sys2Proof.Machine.execMtwait rd rs1 s
  | .mtqrd rd rs1 => Sys2Proof.Machine.execMtqrd rd rs1 s
  | .mtqwr rs1 rs2 => Sys2Proof.Machine.execMtqwr rs1 rs2 s
  | .mtresume rd rs1 => Sys2Proof.Machine.execMtresume rd rs1 s
  | .mtresumeSkip rd rs1 => Sys2Proof.Machine.execMtresumeSkip rd rs1 s
  | .mtkill rd rs1 => Sys2Proof.Machine.execMtkill rd rs1 s
  | .mtfault item rd rs1 => Sys2Proof.Machine.execMtfault item rd rs1 s
  | .mtfetch ms1 => Sys2Proof.Machine.execMtfetch ms1 s
  | .mtfetchNz ms1 ms2 => Sys2Proof.Machine.execMtfetchNz ms1 ms2 s
  | .mtfetchZ ms1 ms2 => Sys2Proof.Machine.execMtfetchZ ms1 ms2 s
  | .mtstop => Sys2Proof.Machine.execMtstop s
  | .mtsend rel dir ms1 => Sys2Proof.Machine.execMtsend rel dir ms1 s
  | .mtrecv acq dir md => Sys2Proof.Machine.execMtrecv acq dir md s
  | .mtid item md => Sys2Proof.Machine.execMtid item md s
  | .blockFetch core thread => Sys2Proof.Machine.execBlockFetch core thread s
  | .mtIssue core lane => Sys2Proof.Machine.execMtIssue core lane s
  | .mtWordComplete core thread => Sys2Proof.Machine.execMtWordComplete core thread s
  | .mtUnblock core thread => Sys2Proof.Machine.execMtUnblock core thread s
  | .escapeMove core => Sys2Proof.Machine.execEscapeMove core s
  | .cpissue rd rs1 rs2 => Sys2Proof.Machine.execCpissue rd rs1 rs2 s
  | .cpissuePut rd rs1 rs2 => Sys2Proof.Machine.execCpissuePut rd rs1 rs2 s
  | .cpissueGet rd rs1 rs2 => Sys2Proof.Machine.execCpissueGet rd rs1 rs2 s
  | .cpwait rd rs1 => Sys2Proof.Machine.execCpwait rd rs1 s
  | .sleeptil rd rs1 => Sys2Proof.Machine.execSleeptil rd rs1 s
  | .cpsusp rd rs1 => Sys2Proof.Machine.execCpsusp rd rs1 s
  | .cpresm rd rs1 => Sys2Proof.Machine.execCpresm rd rs1 s
  | .cpcancel rd rs1 => Sys2Proof.Machine.execCpcancel rd rs1 s
  | .cpstat rd rs1 item => Sys2Proof.Machine.execCpstat rd rs1 item s
  | .copyAccept core => Sys2Proof.Machine.execCopyAccept core s
  | .copyBegin core entry => Sys2Proof.Machine.execCopyBegin core entry s
  | .copyDone core entry chunks => Sys2Proof.Machine.execCopyDone core entry chunks s
  | .copyFault core entry => Sys2Proof.Machine.execCopyFault core entry s
  | .copyStop core entry chunks => Sys2Proof.Machine.execCopyStop core entry chunks s
  | .promiseMiss core entry => Sys2Proof.Machine.execPromiseMiss core entry s
  | .ctxsave rd flags => Sys2Proof.Machine.execCtxsave rd flags s
  | .ctxload => Sys2Proof.Machine.execCtxload s
  | .kfail rs1 rs2 => Sys2Proof.Machine.execKfail rs1 rs2 s
  | .trapset rd rs1 rs2 => Sys2Proof.Machine.execTrapset rd rs1 rs2 s
  | .trapsetRet => Sys2Proof.Machine.execTrapsetRet s
  | .storageErrorTrap core => Sys2Proof.Machine.execStorageErrorTrap core s
  | .pwreq rd rs1 rs2 => Sys2Proof.Machine.execPwreq rd rs1 rs2 s
  | .pwpin rd rs1 => Sys2Proof.Machine.execPwpin rd rs1 s
  | .pwgrant rd rs1 => Sys2Proof.Machine.execPwgrant rd rs1 s
  | .pwslot rd rs1 rs2 => Sys2Proof.Machine.execPwslot rd rs1 rs2 s
  | .pwstat rd rs1 item => Sys2Proof.Machine.execPwstat rd rs1 item s
  | .tokenRefill => Sys2Proof.Machine.execTokenRefill s
  | .coreQuiet core => Sys2Proof.Machine.execCoreQuiet core s
  | .heldLoadRelease core => Sys2Proof.Machine.execHeldLoadRelease core s
  | .coreGate core => Sys2Proof.Machine.execCoreGate core s
  | .coreWakeReady core => Sys2Proof.Machine.execCoreWakeReady core s
  | .railAtTarget cluster => Sys2Proof.Machine.execRailAtTarget cluster s
  | .clockAtLevel cluster => Sys2Proof.Machine.execClockAtLevel cluster s
  | .ringLatch cluster => Sys2Proof.Machine.execRingLatch cluster s
  | .limitRecordUpdate cluster maxlvl ceil cap => Sys2Proof.Machine.execLimitRecordUpdate cluster maxlvl ceil cap s
  | .telemetrySample => Sys2Proof.Machine.execTelemetrySample s
  | .hbmLaneLend die channel => Sys2Proof.Machine.execHbmLaneLend die channel s
  | .hbmLaneReturn die channel => Sys2Proof.Machine.execHbmLaneReturn die channel s
  | .correctedError die source unit addr lane => Sys2Proof.Machine.execCorrectedError die source unit addr lane s
  | .uncorrectableError die source unit addr lane => Sys2Proof.Machine.execUncorrectableError die source unit addr lane s
  | .fatalError die source unit addr => Sys2Proof.Machine.execFatalError die source unit addr s
  | .moduleReset => Sys2Proof.Machine.execModuleReset s
  | .go word => Sys2Proof.Machine.execGo word s
  | .bootVerify => Sys2Proof.Machine.execBootVerify s
  | .maquetteService diesok => Sys2Proof.Machine.execMaquetteService diesok s
  | .fullService diesok => Sys2Proof.Machine.execFullService diesok s
  | .tail vf value => Sys2Proof.Machine.execTail vf value s
  | .launchPacket vf => Sys2Proof.Machine.execLaunchPacket vf s
  | .hostWrite addr bytes => Sys2Proof.Machine.execHostWrite addr bytes s
  | .hostRead addr len => Sys2Proof.Machine.execHostRead addr len s
  | .hostAtomicop addr op width operand compare => Sys2Proof.Machine.execHostAtomicop addr op width operand compare s
  | .atsInvalidation addr len => Sys2Proof.Machine.execAtsInvalidation addr len s
  | .junctionPortDown port => Sys2Proof.Machine.execJunctionPortDown port s
  | .portRetrain port => Sys2Proof.Machine.execPortRetrain port s
  | .maromFailover => Sys2Proof.Machine.execMaromFailover s
  | .kmctlTsReset value => Sys2Proof.Machine.execKmctlTsReset value s
  | .kmctlTsSet value => Sys2Proof.Machine.execKmctlTsSet value s
  | .registerWrite function offset value => Sys2Proof.Machine.execRegisterWrite function offset value s
  | .junctionPortRequest port put offset bytes => Sys2Proof.Machine.execJunctionPortRequest port put offset bytes s
  | .wayDrainComplete die slice => Sys2Proof.Machine.execWayDrainComplete die slice s

end Sys2Proof.Machine
end

