-- ==== Sys2Proof/Machine/Round.lean ====
section
/-! DEFINITION. What the module's other agents do in a step of the control thread. The spec leaves open when each acts; the
inputs of a state can bring every one of their events at any step, and this is the model's own choice of what they do
without one (log entry 1). -/

namespace Sys2Proof.Machine

/-- Loads and slot fills land (R201, R235, R248), at every sixteenth station tick: the oldest load, and every slot. -/
def State.landOne (s : State) : State :=
  if s.tick % 16 ≠ 0 || (s.core.vec.inFlight.isEmpty && !s.core.mat.slots.toList.any SlotState.filling) then s
  else (s.mapVec (VecState.land 0)).mapMat fun m => { m with slots := m.slots.map SlotState.landed }

/-- Reservations end 4,096 core cycles after they were taken (R62, R292). -/
def Core.expireReservations (c : Core) : Core :=
  if c.reservation.isNone && c.vec.reservations.isEmpty then c
  else { c with
    reservation := c.reservation.filter fun r => decide (c.clock < r.cycle + 4096)
    vec := { c.vec with reservations := c.vec.reservations.filter fun r => decide (c.clock < r.cycle + 4096) } }

/-- The governor's and the signal boxes' steps for one core (R80, R86, R341, R345, R361, R368). -/
def State.serviceCore (core : Nat) (s : State) : State :=
  let s := (((s.wakeReady core).goQuiet core).expireHeld core).gateIfDue core
  let s := if (s.coreOf core).drain.isSome then s.finishDrain core else s
  ((s.stopIfQuiescing core).select core).dispatch core

/-- One round of the core in focus: its loads, reservations, micro-threads and copies, and its service. A core of a die that is
out of service does nothing (R383), and one that a fatal error has halted does nothing (R380). -/
def State.coreRound (s : State) : State :=
  if !s.inService s.core.id || s.core.run = .halted then s
  else (s.landOne.mapCore Core.expireReservations).threadRound.copyRound.serviceCore s.core.id

/-- A cluster whose rail or clock moves gets there (R366), and a ring entry that is due is latched (R367). -/
def State.clusterRound (k : Nat) (s : State) : State :=
  let s := match (s.cluster k).dvfs with
    | .freqUp | .freqDown => s.clockReached k
    | _ => s.railReached k
  if (s.cluster k).samples < s.tick / 10000 then s.latchRing k else s

/-- A cluster is in a request, or owes a ring entry. -/
def State.clusterDue (s : State) (k : Nat) : Bool :=
  (s.cluster k).dvfs != .idle || decide ((s.cluster k).samples < s.tick / 10000)

/-- A round of some cores, in ascending number (R355). -/
def State.rounds (cs : List Nat) (s : State) : State := cs.foldl (fun s c => s.onCore c State.coreRound) s

/-- What follows each step of the control thread: the rounds of the core in focus and of those above it, with which the station
tick ends; the rounds of those below it in the next one, so that a tick takes the cores' charges in ascending number (R355);
and a round of the other agents. -/
def State.background (s : State) : State :=
  let s := s.mapCore fun c => { c with stopAt := none }
  let ids := sortBy id (s.cores.map (·.id))
  let s := (s.rounds (ids.filter fun c => s.core.id ≤ c)).stationTick
  let s := s.rounds (ids.filter fun c => c < s.core.id)
  let s := ((List.range 192).filter s.clusterDue).foldl (fun s k => s.clusterRound k) s
  let s := s.domainOrder.foldl (fun s n => s.reportDomain n) s
  (List.range 32).foldl (fun s f => s.launch f) s

/-- What an input other than an event does: the choice of the core in focus, a replacement in a cache, and what firmware,
the controller, the fuses or the host set (R55, R187, R329, R365, R377, R378, R381, R384, R386, R387, R410). Of a new DVFS table
the rail of a cluster that is Idle takes no notice until its next move: R365 and R366 list no event for it (DESIGN CHOICE, log
entry 11). -/
def State.takeChoice (i : Input) (s : State) : State :=
  match i with
  | .event _ => s
  | .focus c | .turn c => if c < coreCount then s.setFocus c else s
  | .dropData c line => s.updCore c fun k => { k with dcache := k.dcache.filter fun l => l.line ≠ line }
  | .dropInstr c line => s.updCore c fun k => { k with icache := k.icache.filter fun l => l.line ≠ line }
  | .dropTranslation c n => s.updCore c fun k => { k with tlb := k.tlb.eraseIdx n }
  | .dropMicroTranslation c n => s.updCore c fun k => { k with vtlb := k.vtlb.eraseIdx n }
  | .dropWalk n => s.mapMem fun m => { m with walkers := m.walkers.eraseIdx n }
  | .dropEngineTranslation n => s.mapMem fun m => { m with engineTlb := m.engineTlb.eraseIdx n }
  | .loadDvfs table => if tableOk table then { s with dev := { s.dev with dvfsTable := table } } else s
  | .placeRegions base => { s with kregbase := setField (BitVec.ofNat 64 base) 0 20 0 }.createRoot
  | .placeLog d base => s.mapDie d fun k => { k with logBase := base }
  | .errorThreshold n => { s with dev := { s.dev with threshold := max 1 (min 255 n) } }
  | .revokeKey slot => { s with dev := { s.dev with revoked := slot :: s.dev.revoked } }
  | .mapFunction vf g => s.mapVf vf fun q => { q with region := g }
  | .acceptRanges p ranges => s.mapPort p fun k => { k with ranges := ranges.take 16 }
  | .bindPasid g p => { s with dev := { s.dev with pasids := (g, p) :: s.dev.pasids.filter fun q => q.1 ≠ g } }
  | .hostPage pasid page granted => { s with dev := { s.dev with
      denied := if granted then s.dev.denied.filter (· ≠ (pasid, page)) else (pasid, page) :: s.dev.denied } }

end Sys2Proof.Machine
end

