-- ==== Sys2Proof/Machine/Step.lean ====
section
/-! DEFINITION. One step of the machine: an input of the schedule where one waits; else the core in focus takes what
interrupts it, or fetches, decodes and executes its next instruction, and the other agents make a round. -/

namespace Sys2Proof.Machine

/-- What the control thread of the core in focus does in place of its next instruction, if anything: an idle or halted one, or
one of a die that is out of service (R383), nothing; at an interruptible point, and not before the groups that the next
instruction is let pass, a user-mode one of a quiescing domain stops (R345), or a storage error (R376) or an enabled interrupt
(R333) is taken; a cause 30 that the pinned dispatch left is raised (R80), before the first instruction is fetched and so before any
cause of its fetch or its word, which neither R41 nor R358 orders (DESIGN CHOICE, log entry 47); and an address that is not a multiple of four,
which only the HANDLER or the return of a redirect can give, raises cause 0 there: R352 does not say so (DESIGN CHOICE, log entry
104). -/
def State.interruption (s : State) : Option State :=
  if s.core.run ≠ .running || !s.inService s.core.id then some s
  else if s.stopsHere && s.endsHere then some (s.quiesceCore s.core.id)
  else if s.stopsHere && !s.core.storageErrors.isEmpty then some s.takeStorageError
  else if s.core.rampPending && s.core.priv == .user then
    some ((s.mapCore fun c => { c with rampPending := false }).takeTrap 30 0)
  else match (if s.interruptible then s.enabledInterrupt else none) with
    | some n => if s.stopsHere then some (s.interruptNow n) else none
    | none => if s.core.pc.toNat % 4 ≠ 0 then some (s.takeTrap 0 s.core.pc) else none

/-- The instruction a word stands for: the decoder's, or the word that is no instruction (R40). -/
noncomputable def instrOf (w : Word32) : Instr :=
  match decode w with
  | .ok i => i
  | .error _ => .nonInstructionWord w

/-- The state in which the instruction of a fetched word executes; whether it waits on a load is not known yet. -/
def State.latch (w : Word32) (s : State) : State := s.mapCore fun c => { c with ir := w, stalled := false }

/-- The control thread issued in this core cycle where its instruction retired or took it elsewhere (R367). -/
def State.noteIssue (c : Core) (s : State) : State :=
  if s.core.id = c.id && (s.core.pc != c.pc || s.core.instret != c.instret) then
    s.mapCore fun c => { c with issued := true }
  else s

/-- An outcome whose next state notes an issue by a core as it was before. -/
def noting (c : Core) : Host.Outcome State Fault Refusal → Host.Outcome State Fault Refusal
  | .next s => .next (s.noteIssue c)
  | .fault f => .fault f
  | .refused r => .refused r

/-- The fetch, the decoding and the execution of the instruction at pc (R54, R40). -/
noncomputable def State.fetchExec (s : State) : Host.Outcome State Fault Refusal :=
  match fetchWord s.core.pc s with
  | .ok w s' => noting s.core (exec (instrOf w) (s'.latch w))
  | .error (.trap c t) s' => .next (s'.takeTrap c t)
  | .error .wait s' => .next s'

/-- An outcome with the round of the other agents after it. -/
def withRound : Host.Outcome State Fault Refusal → Host.Outcome State Fault Refusal
  | .next s => .next s.background
  | .fault f => .fault f
  | .refused r => .refused r

/-- The die and the UNIT of the entry that an event brings into an error log (R378). -/
def loggedUnit : Instr → Option (Nat × Nat)
  | .correctedError die _ unit _ _ => some (die, unit.toNat)
  | .uncorrectableError die _ unit _ _ => some (die, unit.toNat)
  | .junctionPortDown port => some (0, port)
  | .maromFailover => some (0, 0)
  | _ => none

/-- An event would be logged after one of a higher UNIT in the same station tick (R379). -/
def State.outOfOrder (s : State) (i : Instr) : Bool :=
  match loggedUnit i with
  | some (d, u) => s.loggedAbove d u
  | none => false

/-- What the control thread of the core in focus does in one step, and the round of the other agents after it. -/
noncomputable def State.threadStep (s : State) : Host.Outcome State Fault Refusal :=
  match s.interruption with
  | some s' => .next s'.background
  | none => withRound s.fetchExec

/-- What an input does, with those after it in the state; an event that the logger may not take in this station tick comes in
the next (R379). The turn of a core runs one step of its control thread, so that those of several cores run in any order (R389,
R390). -/
noncomputable def takeInput (i : Input) (s : State) : Host.Outcome State Fault Refusal :=
  match i with
  | .event (.nonInstructionWord _) => .fault .notAnEvent
  | .event e =>
    if !e.isEvent then .fault .notAnEvent
    else if s.outOfOrder e then .next { s with inputs := .event e :: s.inputs }.background
    else exec e s
  | .turn c => (s.takeChoice (.turn c)).threadStep
  | i => .next (s.takeChoice i)

/-- One step. -/
noncomputable def step (s : State) : Host.Outcome State Fault Refusal :=
  match s.inputs with
  | i :: rest => takeInput i { s with inputs := rest }
  | [] => s.threadStep

/-- The state in which `step` runs a given word as its next instruction: no input waits, the control thread runs, and the
word stands where the fetch reads it. -/
def State.withFetchWord (s : State) (nbits w : Nat) : State :=
  let s := { s with inputs := [], core := { s.core with run := .running, icache := [] } }
  match s.resolve s.fetchSpace .fetch s.core.pc with
  | .ok (pa, _) => if nbits ≤ 32 then s.writePA pa 4 w else s
  | .error _ => s

end Sys2Proof.Machine
end

