-- ==== Sys2Proof/Safety.lean ====
section
/-! DEFINITION. What statements about the machine are said in: what an instruction leaves unchanged, when an access meets
nothing that stops it, when a vector instruction meets none of its checks, and the invariant of the memory. -/

namespace Sys2Proof.Machine

/-! ### Invariants -/

/-- Memory lists its bytes in the one canonical form. -/
def State.Inv (s : State) : Prop := s.mem.bytes.wf = true

/-- Every lane slice of a core, its operand store and its armed weights are in canonical form. -/
def Core.Canonical (c : Core) : Prop :=
  (∀ l, (c.vec.slice l).wf = true) ∧ c.mat.store.wf = true ∧ c.mat.armed.wf = true

/-- Every core is in canonical form, and so is the image in its siding. -/
def State.CoresCanonical (s : State) : Prop := ∀ c ∈ s.cores, c.Canonical ∧ c.siding.image.wf = true

/-! ### Memory -/

/-- One byte of physical memory. -/
def State.byteAt (s : State) (a : Nat) : Nat := s.readPA a 1

/-- Every byte of memory reads in `t` as it reads in `s`. -/
def SameMemory (s t : State) : Prop := ∀ a, t.byteAt a = s.byteAt a

/-- Every byte of memory outside the `n` bytes at `pa` reads in `t` as it reads in `s`. -/
def MemoryOutside (pa n : Nat) (s t : State) : Prop :=
  ∀ a, canonical a < canonical pa ∨ canonical pa + n ≤ canonical a → t.byteAt a = s.byteAt a

/-- A release bit finds the phase free to move: 40 station ticks have passed since its last bump (R277). -/
def ReleaseFree (rl : BitVec 1) (s : State) : Prop := rl = 1 → ∀ t, s.core.lastBump = some t → t + 40 ≤ s.tick

/-- The state once a release bit has bumped the phase (R277). -/
def State.afterRelease (rl : BitVec 1) (s : State) : State :=
  if rl = 1 then s.bumpPhase else s

/-- A race check by the core in focus finds nothing to report. -/
def State.NoRace (s : State) (pa : Nat) : Prop := isHost pa = true ∨ s.conflict s.core.id pa = none

/-- An access at a translated address meets no refused host page, no poison and no conflicting race tag. -/
def State.Clear (s : State) (acc : Acc) (x : Xlated) (va : Word) (write : Bool) : Prop :=
  checkHostPage acc x.pa va s = .ok () s ∧ s.poisoned x.pa = false ∧
    ((s.touch x.pa .normal write).useHostPage x.pa).NoRace x.pa

/-! ### Frames of the control thread -/

/-- The instruction retired: pc is past it, and instret counts it unless mcountinhibit.IR holds it (R64). -/
def Retired (s t : State) : Prop :=
  t.core.pc = s.core.pc + 4 ∧
    t.core.instret = if bit s.core.csr.mcountinhibit 2 then s.core.instret else s.core.instret + 1

/-- Nothing but x[rd], pc, instret and the model's own marks of an interrupted, sleeping or begun instruction differs: no other
integer register, no floating-point register, no CSR, nothing of the vector, matrix, thread and copy state, no other
core, and no byte of memory. -/
def FrameX (rd : BitVec 5) (s t : State) : Prop :=
  (∀ r, r ≠ rd → t.x r = s.x r) ∧ t = { s with core := t.core } ∧
    t.core = { s.core.endInstr with regs := t.core.regs, pc := t.core.pc, instret := t.core.instret } ∧
    SameMemory s t

/-- x[rd] holds `v` (x0 zero), the instruction retired, and nothing else differs. -/
def WritesX (rd : BitVec 5) (v : Word) (s t : State) : Prop :=
  t.x rd = (if rd = 0 then 0 else v) ∧ Retired s t ∧ FrameX rd s t

/-- Nothing but f[rd], the flags `fl` in fflags, FS Dirty, pc, instret and the model's own marks differs. -/
def WritesF (rd : BitVec 5) (v : Word32) (fl : Flags) (s t : State) : Prop :=
  t.f rd = v ∧ t.core.fflags = s.core.fflags ||| fl ∧ field t.core.csr.mstatus 13 2 = 3 ∧ Retired s t ∧
    (∀ r, r ≠ rd → t.f r = s.f r) ∧ (∀ b, b < 13 ∨ 15 ≤ b → bit t.core.csr.mstatus b = bit s.core.csr.mstatus b) ∧
    t = { s with core := t.core } ∧
    t.core = { s.core.endInstr with fregs := t.core.fregs, fflags := t.core.fflags, pc := t.core.pc,
                                    instret := t.core.instret, csr := { s.core.csr with mstatus := t.core.csr.mstatus } } ∧
    SameMemory s t

/-- x[rd] holds `v`, fflags gains `fl`, FS is Dirty where a flag came, and nothing else differs. -/
def WritesXFlags (rd : BitVec 5) (v : Word) (fl : Flags) (s t : State) : Prop :=
  t.x rd = (if rd = 0 then 0 else v) ∧ t.core.fflags = s.core.fflags ||| fl ∧
    (field t.core.csr.mstatus 13 2 = if fl = 0 then field s.core.csr.mstatus 13 2 else 3) ∧ Retired s t ∧
    (∀ r, r ≠ rd → t.x r = s.x r) ∧ (∀ b, b < 13 ∨ 15 ≤ b → bit t.core.csr.mstatus b = bit s.core.csr.mstatus b) ∧
    t = { s with core := t.core } ∧
    t.core = { s.core.endInstr with regs := t.core.regs, fflags := t.core.fflags, pc := t.core.pc,
                                    instret := t.core.instret, csr := { s.core.csr with mstatus := t.core.csr.mstatus } } ∧
    SameMemory s t

/-- An access that writes nothing: nothing of the core differs but integer registers, pc, instret, its caches and its
translations, and nothing of the module but the memory system, the host translations in use and the count of free values. -/
def FrameAccess (s t : State) : Prop :=
  t.core = { s.core.endInstr with regs := t.core.regs, pc := t.core.pc, instret := t.core.instret, dcache := t.core.dcache,
                                  tlb := t.core.tlb, vtlb := t.core.vtlb } ∧
    t = { s with core := t.core, mem := t.mem, dev := { s.dev with ats := t.dev.ats }, free := t.free }

/-- What another core may lose by an access that is not its own: reservations, and nothing else (R62, R292). -/
def Core.LostReservations (c d : Core) : Prop :=
  d = { c with reservation := d.reservation, vec := { c.vec with reservations := d.vec.reservations } } ∧
    (d.reservation = c.reservation ∨ d.reservation = none) ∧ d.vec.reservations.Sublist c.vec.reservations

/-- An access that reads, at a translated address: its walk may set A in a leaf, by which another core loses its reservations on
the leaf's line. -/
def FrameRead (s t : State) : Prop :=
  FrameAccess s { t with others := s.others } ∧ ∀ c, c ≠ s.core.id → (s.coreOf c).LostReservations (t.coreOf c)

/-- An access that writes: of another core, it may take reservations and translations as well. -/
def FrameWrite (s t : State) : Prop :=
  FrameAccess s { t with others := s.others } ∧
    ∀ c, c ≠ s.core.id → t.coreOf c = { s.coreOf c with
      reservation := (t.coreOf c).reservation, tlb := (t.coreOf c).tlb, vtlb := (t.coreOf c).vtlb
      vec := { (s.coreOf c).vec with reservations := (t.coreOf c).vec.reservations } }

/-! ### Floating point -/

/-- The magnitude of a code, in units of the format's smallest subnormal (R135, R155); above the largest finite code it goes on as
an unbounded exponent range would. -/
def Format.units (f : Format) (k : Nat) : Nat :=
  if k < 2 ^ f.mbits then k else (k % 2 ^ f.mbits + 2 ^ f.mbits) * 2 ^ (k / 2 ^ f.mbits - 1)

/-- The signed magnitude of a code of a sign. -/
def Format.signedUnits (f : Format) (neg : Bool) (k : Nat) : Int := if neg then -(f.units k : Int) else f.units k

/-- The greater of two neighbours is the rounding of a value strictly between them, by how their midpoint compares with it and
whether the lesser one is odd (R138). -/
def Rounding.takesUpper (r : Rounding) (neg odd : Bool) (middle : Ordering) : Bool :=
  match r with
  | .rne => middle == .lt || (middle == .eq && odd)
  | .rtz | .sr _ => false
  | .rdn => neg
  | .rup => !neg
  | .rmm => middle != .gt

/-- An overflow gives the infinity of a format that has one (the table of R138). -/
def Rounding.givesInfinity (r : Rounding) (neg : Bool) : Bool :=
  match r with
  | .rne | .rmm => true
  | .rtz | .sr _ => false
  | .rdn => neg
  | .rup => !neg

/-- A magnitude, which `cmp` compares multiples of a quarter of the smallest subnormal with, rounds below the smallest normal where
the exponent range is unbounded (R137). -/
def Format.Tiny (f : Format) (r : Rounding) (neg : Bool) (cmp : Nat → Ordering) : Bool :=
  let n := 4 * 2 ^ f.mbits
  match r with
  | .rne | .rmm => cmp (n - 1) == .gt
  | .rtz | .sr _ => cmp n == .gt
  | .rdn => if neg then cmp (n - 2) != .lt else cmp n == .gt
  | .rup => if neg then cmp n == .gt else cmp (n - 2) != .lt

/-- A code and its flags are the exact value rounded once, in a mode of FRM (R137, R138): `cmp k` compares k quarters of the
smallest subnormal with its magnitude. -/
def Format.Rounds (f : Format) (r : Rounding) (neg : Bool) (cmp : Nat → Ordering) (result : Nat × Flags) : Prop :=
  ∃ lo, cmp (4 * f.units lo) ≠ .gt ∧ cmp (4 * f.units (lo + 1)) = .gt ∧
    let exact := cmp (4 * f.units lo) == .eq
    let up := !exact && r.takesUpper neg (lo % 2 == 1) (cmp (2 * (f.units lo + f.units (lo + 1))))
    let k := if up then lo + 1 else lo
    result =
      if f.maxCode < k then
        (f.sign neg + (if f.hasInf && r.givesInfinity neg then f.maxCode + 1 else f.maxCode), flagOF ||| flagNX)
      else (f.sign neg + k, flagIf (!exact) flagNX ||| flagIf (!exact && f.Tiny r neg cmp) flagUF)

/-! ### Vector instructions -/

/-- What lets a vector instruction begin and run to its end: its registers exist and are full, no lane change is pending,
the core is in vector mode and not quiet, and no interrupt is to stop it. -/
def VectorReady (s : State) (reads writes : List Nat) : Prop :=
  s.namesOk (reads ++ writes) = true ∧ s.core.vec.cfg.vlx = false ∧ s.core.mat.mode = .vector ∧
    s.core.power.quietLoad = 0 ∧ (reads ++ writes).all s.isFull = true ∧ s.core.stopAt = none

/-- The core once an instruction has entered qv: no longer quiet, and with an instruction in qv (R361). -/
def State.enteredQv (s : State) : State :=
  s.mapCore fun k => { k with inQv := true, power := { k.power with quietLoad := 0, qvIdle := 0 } }

/-- The whole pass of an interruptible instruction: its elements from kvstart to kvl − 1 in order, each formed from the
registers as they stood, then the tail where any element was left to do; kvstart becomes 0 (R106, R107). -/
def State.pass (geo : Geometry) (d : Dest) (f : Nat → ElementResult) (s : State) : State :=
  if s.vl ≤ s.vstart then s.setVstart 0
  else ((s.commitFrom geo d f (s.vl - s.vstart) s.vstart).writeTail geo d s.vl).setVstart 0

/-- The whole pass of a non-interruptible instruction over its first `n` elements, kvstart taken as 0 (R107). -/
def State.passAll (geo : Geometry) (d : Dest) (n : Nat) (f : Nat → ElementResult) (s : State) : State :=
  (if s.vl ≠ 0 then (s.commitFrom geo d f n 0).writeTail geo d n else s).setVstart 0

/-- A geometry that some configuration gives: a register count, at least one granted lane, and distinct lanes that exist
(R20, R104). -/
def Geometry.Good (geo : Geometry) : Prop :=
  (geo.n = 8 ∨ geo.n = 16 ∨ geo.n = 32) ∧ 0 < geo.g ∧ geo.g ≤ geo.lanes.length ∧ geo.lanes.Nodup ∧
    ∀ l ∈ geo.lanes, l < 128

/-- A destination that its geometry has: its registers exist, at a width and a span that instructions use (R97, R108). -/
def Dest.Fits (geo : Geometry) : Dest → Prop
  | .elems w r span => w ∈ [8, 16, 32, 64] ∧ span ∈ [1, 2] ∧ r + span ≤ geo.n
  | .mask r => r < geo.n

/-- Element or bit i of a destination, a bit as 0 or 1. -/
def Dest.value (d : Dest) (geo : Geometry) (v : VecState) (i : Nat) : Nat :=
  match d with
  | .elems w r _ => v.elem geo w r i
  | .mask r => (v.maskBit geo r i).toNat

/-- What a destination holds once a value is written to an element or bit of it. -/
def Dest.stored (d : Dest) (x : Nat) : Nat :=
  match d with
  | .elems w _ _ => x % 2 ^ w
  | .mask _ => (x != 0).toNat

/-- The register that element or bit i of a destination lies in (R97, R98). -/
def Dest.register (d : Dest) (geo : Geometry) (i : Nat) : Nat :=
  match d with
  | .elems w r _ => r + i / geo.cap w 1
  | .mask r => r

/-- A pass from element `lo` to `hi` of a destination, of which `f` gives the values, writes element i: it has a value, or it lies
in a tail that TAIL zeroes (R106). -/
def Dest.Written (d : Dest) (geo : Geometry) (f : Nat → ElementResult) (lo hi : Nat) (s : State) (i : Nat) : Prop :=
  i < d.cap geo ∧ (lo ≤ i ∧ i < hi ∧ (f i).isSome = true ∨ hi ≤ i ∧ s.core.vec.cfg.tail = true)

/-- The marks that a pass leaves, where it runs: DIRTY of every register that an element was written in (R338), and in kvfflags the
flags of the elements it computed, beside those that stood (R139, R140). -/
def Dest.Marks (d : Dest) (geo : Geometry) (f : Nat → ElementResult) (runs : Prop) (lo hi : Nat) (s t : State) : Prop :=
  (∀ k, t.core.vec.kvdirty.getLsbD k = true ↔
    s.core.vec.kvdirty.getLsbD k = true ∨ runs ∧ ∃ i, d.Written geo f lo hi s i ∧ d.register geo i = k) ∧
  ∀ b, t.core.vec.kvfflags.getLsbD b = true ↔
    s.core.vec.kvfflags.getLsbD b = true ∨ runs ∧ ∃ i x fl, lo ≤ i ∧ i < hi ∧ f i = some (x, fl) ∧ BitVec.getLsbD fl b = true

/-- The elements of the body that vm leaves active, in ascending order (00_scope). -/
def State.activeBody (s : State) (vm : BitVec 1) : List Nat :=
  (List.range s.vl).filter (s.core.vec.active s.core.vec.geometry vm)

/-- What the vector instructions write by: nothing for an inactive element, else a value that raises no flag. -/
def State.whenActive (s : State) (vm : BitVec 1) (value : Nat → Nat) (i : Nat) : ElementResult :=
  if s.core.vec.active s.core.vec.geometry vm i then some (value i, 0) else none

/-- What lets a vector load or store begin: its registers, its mode and its shape pass their checks, every register it
touches is full, ql has room for a load (R54), and no interrupt is to stop it (R207, R213). -/
def MemoryReady (s : State) (a : VectorAccess) (vm : BitVec 1) : Prop :=
  a.registersOk s vm = true ∧ a.shapeOk s = true ∧ s.core.vec.cfg.vlx = false ∧ s.core.mat.mode = .vector ∧
    (a.index.toList ++ maskReads vm ++ a.group s.sew).all s.isFull = true ∧ s.core.stopAt = none ∧
    (a.load = true → s.loadsInFlight < 32)

/-- The accesses of a vector load or store, in element order (R187, R207). -/
def VectorAccess.accesses (a : VectorAccess) (s : State) (vm : BitVec 1) : Exec Unit := a.elements s vm (s.vl - s.vstart) s.vstart

/-- Nothing stands in the way of a plain access but its address: a core that exists, in machine mode without MPRV, so that
addresses are physical, no race tag, no poison, no discarded page, and no host page refused. -/
def State.Plain (s : State) : Prop :=
  s.core.id < coreCount ∧ s.core.priv = .machine ∧ bit s.core.csr.mstatus 17 = false ∧ s.mem.tags = [] ∧ s.mem.spill = [] ∧ s.mem.poison = [] ∧
    s.mem.discards = [] ∧ s.dev.denied = []

/-- An address that a plain access of `n` bytes may use (R176, R207). -/
def State.Usable (s : State) (va : Word) (n : Nat) : Prop :=
  va.toNat % n = 0 ∧ va.toNat < 2 ^ 52 ∧ s.legal va.toNat = true

/-- No micro-thread of the core in focus is executing a word. -/
def State.NoneExecuting (s : State) : Prop := ∀ p ∈ s.core.mt.threads, p.2.state ≠ .executing

/-- The cause that a vector access of `n` bytes at an address it may not use raises, in machine mode (R207). -/
def vmuCause (load : Bool) (va : Word) (n : Nat) : Nat :=
  if va.toNat % n ≠ 0 then (if load then 4 else 6) else if load then 5 else 7

/-- Unit j of a whole register: eight bytes of its slice in the lane at position j mod A, at 64-bit slot j / A (R220). -/
def VecState.unit (v : VecState) (r j : Nat) : Nat :=
  let a := lanesInService v.laneMap
  let n := nregOf v.cfg.nreg
  (v.slice ((lanePositions v.laneMap).getD (j % a) 0)).read (r * (2048 / n) + 8 * (j / a)) 8

/-- Two stretches of physical memory have no byte in common. -/
def Apart (p n q k : Nat) : Prop := canonical p + n ≤ canonical q ∨ canonical q + k ≤ canonical p

/-- Nothing but the vector state, kvstart and kvfflags among it, pc, instret and the power state of a core that is no
longer quiet differs. -/
def FrameVector (s t : State) : Prop :=
  t = { s with core := t.core } ∧
    t.core = { s.core.endInstr with vec := t.core.vec, pc := t.core.pc, instret := t.core.instret,
                                    power := { s.core.power with quietLoad := 0, qvIdle := 0 } } ∧
    t.core.vec = { s.core.vec with vrf := t.core.vec.vrf, kvstart := 0, kvfflags := t.core.vec.kvfflags,
                                   kvdirty := t.core.vec.kvdirty } ∧
    SameMemory s t

/-- No register but x[rd] and no byte of memory differs. -/
def KeepsOthers (rd : BitVec 5) (s t : State) : Prop :=
  (∀ r, r ≠ rd → t.x r = s.x r) ∧ t.core.fregs = s.core.fregs ∧ SameMemory s t

/-- What lets a synchronising vector instruction over the registers `rs` begin: they exist and are full, no lane change is
pending, the core is in vector mode, ql has room where it loads (R54), and no interrupt is to stop it (R295). -/
def State.VmuReady (s : State) (load : Bool) (rs : List Nat) (vm : BitVec 1) : Prop :=
  s.namesOk rs = true ∧ s.core.vec.cfg.vlx = false ∧ s.core.mat.mode = .vector ∧
    (rs ++ maskReads vm).all s.isFull = true ∧ s.core.stopAt = none ∧ (load = true → s.loadsInFlight < 32)

/-- What lets a matrix instruction begin: no lane change is pending, the lane mode is right, and the tile state is not off
(R238). -/
def State.MatrixReady (s : State) (vectorToo : Bool) : Prop :=
  s.core.vec.cfg.vlx = false ∧ (s.core.mat.mode = .matrix ∨ vectorToo = true ∧ s.core.mat.mode = .vector) ∧
    s.core.mat.ts ≠ .off

/-- What lets an instruction on micro-threads begin (R262). -/
def State.ThreadsReady (s : State) : Prop := s.core.vec.cfg.vlx = false ∧ s.core.mat.mode = .threaded

/-- A rising step of `c` mA by the core in focus need not wait: nobody waits in the die's queue, the balance covers what held
load does not, and a pinned core comes in its turn (R355 to R358). -/
def State.Affordable (s : State) (c : Nat) : Prop :=
  s.core.power.paid = false ∧ (s.corePinned s.core.id = true → s.pinnedTurn s.core.id = true) ∧ (s.die (dieOf s.core.id)).charges = [] ∧
    s.netCharge s.core.id c ≤ (s.die (dieOf s.core.id)).bUp

end Sys2Proof.Machine
end

