-- ==== Sys2Proof/Certificates/Slice0/Obligations.lean ====
section
/-! DEFINITION. The statements for the provers: what the machine does, rule by rule of spec/. A statement about an
instruction's result concludes that `exec` answers that next state; what it leaves unchanged stands in the frames of
Safety.lean. -/

open Sys2Proof Sys2Proof.Machine

/-! ### Reset, the invariant, decoding and the step -/

/-- The registers read after reset as the Reset columns of R100 to R104, R160, R191, R211, R231, R232, R286, R287 and
R363 give them, both balances of every die are full (R354), and the module waits for an image. The vector limits of
kvlmax and kmvlmax for whole lane maps (log entry 8), the full vector registers (log entry 4) and region 0 alone live
(log entry 10) are the model's choices. -/
def Obligations.ResetValues : Prop :=
  (∀ p ∈ ([(0x800, 0), (0x801, 0), (0x802, 0), (0x804, 0), (0x805, 0), (0x806, 0), (0x807, 0x14080),
      (0x808, 1), (0xCC0, 0), (0xCC1, 0x3000), (0xCC2, 8192), (0xCC9, 0), (0xCCB, 0), (0xCCC, 0), (0xCCD, 0),
      (0xCCE, 0), (0xCCF, 0)] : List (Nat × Word)), State.reset.readCsr p.1 = some p.2) ∧
    (∀ d, (State.reset.die d).bUp = 64000 ∧ (State.reset.die d).bDn = 64000) ∧
    (∀ r, State.reset.isFull r = decide (r < 32)) ∧
    State.reset.live = [0] ∧ State.reset.dev.service = .awaitImage ∧ State.reset.core.mat.mode = .vector

/-- The state after reset has its memory, and every core's stores and siding, in canonical form. -/
def Obligations.ResetCanonical : Prop :=
  State.reset.Inv ∧ State.reset.CoresCanonical

/-- Every step of the machine, whatever it runs and whatever the other agents do, keeps the memory in its canonical
form, so that equal memories stay equal data. -/
def Obligations.StepKeepsMemoryCanonical : Prop :=
  ∀ s s' : State, s.Inv → step s = .next s' → s'.Inv

/-- Every step of the machine keeps every core's lane slices, operand store, armed weights and siding image in
canonical form. -/
def Obligations.StepKeepsCoresCanonical : Prop :=
  ∀ s s' : State, s.CoresCanonical → step s = .next s' → s'.CoresCanonical

/-- Every encoded instruction that is well formed has a word, and the decoder reads that word as the same instruction
with every operand: no bit of an encoding is dropped. A word that the decoder accepts is the word of a well-formed instruction, so
that no must-be-zero field of it holds another value (R28 to R38). The reserved encodings decode to nothing: all zeros and all ones,
bits [1:0] other than 3, the major opcodes that R29 marks illegal and its absent forms, a reserved funct6 of KA and funct3 of KX and
KS, and the KM hint 3 that must be understood (R29, R31, R35 to R37, R40). -/
def Obligations.DecodeEncode : Prop :=
  (∀ i : Instr, i.wellFormed = true → i.isEvent = false → ∃ w, encode i = some w ∧ decode w = .ok i) ∧
  (∀ (w : Word32) (i : Instr), decode w = .ok i → i.wellFormed = true ∧ i.isEvent = false ∧ encode i = some w) ∧
  (∀ w : Word32,
      let major : BitVec 7 := w.extractLsb' 0 7
      let funct3 : BitVec 3 := w.extractLsb' 12 3
      let fmt : BitVec 2 := w.extractLsb' 25 2
      let funct6 : BitVec 6 := w.extractLsb' 26 6
      let mode : BitVec 3 := w.extractLsb' 29 3
      let hint : BitVec 3 := w.extractLsb' 26 3
      w = 0 ∨ w = 0xFFFFFFFF ∨ w.extractLsb' 0 2 ≠ 3#2 ∨ major ∈ [0x57, 0x6B, 0x77, 0x1F, 0x3F, 0x5F, 0x7F] ∨
          major ∈ [0x07, 0x27] ∧ funct3 ≠ 2 ∨ major ∈ [0x43, 0x47, 0x4B, 0x4F, 0x53] ∧ fmt ≠ 0 ∨
          major = 0x0B ∧ 0x38 ≤ funct6.toNat ∨ major = 0x5B ∧ funct3 ∈ [3, 6, 7] ∨ major = 0x7B ∧ funct3 ∈ [6, 7] ∨
          major = 0x2B ∧ mode ≠ 7 ∧ hint = 7 →
        ∀ i, decode w ≠ .ok i)

/-- Words written out field by field from the encodings of the spec, one for each major opcode that R29 assigns, and of the
formats KA, KM, KX, KS-R and KS-I among them, decode to the instructions they stand for (R29 to R37, R58). -/
def Obligations.DecodeWords : Prop :=
  ∀ p ∈ ([(0#7 ++ 2#5 ++ 1#5 ++ 0#3 ++ 3#5 ++ 0x33#7, .add 3 1 2),
      (32#7 ++ 2#5 ++ 1#5 ++ 0#3 ++ 3#5 ++ 0x33#7, .sub 3 1 2),
      (0xFFF#12 ++ 1#5 ++ 0#3 ++ 5#5 ++ 0x13#7, .addi 5 1 0xFFF),
      (8#12 ++ 1#5 ++ 3#3 ++ 5#5 ++ 0x03#7, .ld 5 1 8),
      (1#7 ++ 2#5 ++ 1#5 ++ 2#3 ++ 4#5 ++ 0x23#7, .sw 1 2 0x24),
      (0#6 ++ 1#1 ++ 1#5 ++ 2#5 ++ 0#3 ++ 3#5 ++ 0x0B#7, .vaddVv 3 1 2 1),
      (0x20#6 ++ 0#1 ++ 1#5 ++ 2#5 ++ 3#3 ++ 3#5 ++ 0x0B#7, .vfaddVf 3 1 2 0),
      (0#3 ++ 0#1 ++ 1#2 ++ 1#1 ++ 0#5 ++ 5#5 ++ 2#3 ++ 4#5 ++ 0x2B#7, .vleE 0 1 4 5 2 1),
      (3#3 ++ 0#1 ++ 0#2 ++ 1#1 ++ 6#5 ++ 5#5 ++ 3#3 ++ 4#5 ++ 0x2B#7, .vsseE 0 0 4 5 6 3 1),
      (0#12 ++ 0#5 ++ 0#3 ++ 0#5 ++ 0x73#7, .ecall),
      (3#5 ++ 0#2 ++ 0#5 ++ 0#5 ++ 0#3 ++ 0#5 ++ 0x5B#7, .mtzero 0),
      (0#1 ++ 3#6 ++ 0#5 ++ 0#5 ++ 0#3 ++ 0#5 ++ 0x7B#7, .cfinish),
      (1#1 ++ 0#1 ++ 0#10 ++ 0#5 ++ 5#3 ++ 9#5 ++ 0x7B#7, .kident 9 0),
      (0#1 ++ 2#6 ++ 2#5 ++ 1#5 ++ 0#3 ++ 3#4 ++ 1#1 ++ 0x63#7, .beq 1 2 0x423),
      (0#1 ++ 5#10 ++ 1#1 ++ 3#8 ++ 1#5 ++ 0x6F#7, .jal 1 0x1C05),
      (4#12 ++ 1#5 ++ 0#3 ++ 0#5 ++ 0x67#7, .jalr 0 1 4),
      (0x12345#20 ++ 5#5 ++ 0x37#7, .lui 5 0x12345), (0x12345#20 ++ 5#5 ++ 0x17#7, .auipc 5 0x12345),
      (0#5 ++ 1#1 ++ 0#1 ++ 2#5 ++ 1#5 ++ 2#3 ++ 3#5 ++ 0x2F#7, .amoaddW 3 1 2 1 0),
      (0#4 ++ 3#4 ++ 2#4 ++ 0#5 ++ 0#3 ++ 0#5 ++ 0x0F#7, .fence 0 3 2 0 0),
      (7#12 ++ 1#5 ++ 0#3 ++ 5#5 ++ 0x1B#7, .addiw 5 1 7), (0#7 ++ 2#5 ++ 1#5 ++ 0#3 ++ 3#5 ++ 0x3B#7, .addw 3 1 2),
      (8#12 ++ 1#5 ++ 2#3 ++ 5#5 ++ 0x07#7, .flw 5 1 8), (0#7 ++ 2#5 ++ 1#5 ++ 2#3 ++ 8#5 ++ 0x27#7, .fsw 1 2 8),
      (4#5 ++ 0#2 ++ 2#5 ++ 1#5 ++ 7#3 ++ 3#5 ++ 0x43#7, .fmaddS 3 1 2 4 7),
      (4#5 ++ 0#2 ++ 2#5 ++ 1#5 ++ 7#3 ++ 3#5 ++ 0x47#7, .fmsubS 3 1 2 4 7),
      (4#5 ++ 0#2 ++ 2#5 ++ 1#5 ++ 7#3 ++ 3#5 ++ 0x4B#7, .fnmsubS 3 1 2 4 7),
      (4#5 ++ 0#2 ++ 2#5 ++ 1#5 ++ 7#3 ++ 3#5 ++ 0x4F#7, .fnmaddS 3 1 2 4 7),
      (0#7 ++ 2#5 ++ 1#5 ++ 7#3 ++ 3#5 ++ 0x53#7, .faddS 3 1 2 7)] : List (Word32 × Instr)),
    decode p.1 = .ok p.2

/-- Where no input waits and nothing interrupts the control thread, a word that the fetch reads at pc and that decodes
to an instruction is executed as that instruction, with the word latched; a step then notes for ISSUE whether the
control thread issued (R367) and adds the round of the other agents (the model's own choice: log entry 1). A word that decodes
to nothing is executed as such (R40). The oldest
input of the schedule is taken first: an event row runs as `exec` runs it, and the control thread does nothing in that
step; an event that the error log must take after one of a higher unit waits for the next station tick (R379; log entry
76); the turn of a core brings it into focus and runs one step of its control thread; a fetched instruction is no input (the
model's own schedule: log entry 1). -/
def Obligations.StepRunsDecoded : Prop :=
  (∀ (s s1 : State) (w : Word32) (i : Instr), s.inputs = [] → s.interruption = none →
      fetchWord s.core.pc s = .ok w s1 → decode w = .ok i → step s = withRound (noting s.core (exec i (s1.latch w)))) ∧
  (∀ (s s1 : State) (w : Word32), s.inputs = [] → s.interruption = none → fetchWord s.core.pc s = .ok w s1 →
      (∀ i, decode w ≠ .ok i) → step s = withRound (noting s.core (exec (.nonInstructionWord w) (s1.latch w)))) ∧
  (∀ (s : State) (e : Instr) (rest : List Input), s.inputs = .event e :: rest →
      (e.isEvent = true → (∀ w, e ≠ .nonInstructionWord w) →
        (s.outOfOrder e = false → step s = exec e { s with inputs := rest }) ∧
          (s.outOfOrder e = true → step s = .next { s with inputs := .event e :: rest }.background)) ∧
        (e.isEvent = false → step s = .fault .notAnEvent)) ∧
  (∀ (s : State) (c : Nat) (rest : List Input), s.inputs = .turn c :: rest →
      let u := { s with inputs := rest }
      let v := if c < 2304 then u.setFocus c else u
      (∀ s', v.interruption = some s' → step s = .next s'.background) ∧
      (∀ s1 w i, v.interruption = none → fetchWord v.core.pc v = .ok w s1 → decode w = .ok i →
        step s = withRound (noting v.core (exec i (s1.latch w)))))

/-- A word that decodes to nothing takes its fate of R40: the all-zeros word raises cause 48 with stval 0, every other
raises cause 2 with stval the word. `ecall` raises cause 8, 9 or 11 by the mode with stval 0, and `ebreak` cause 3
with stval its own address (R331, R353): taking that exception is the whole of their effect. Each word that stands
only in blocks raises cause 2 with stval the word where the control thread meets it (R260). -/
def Obligations.ExceptionInstructions : Prop :=
  ((∀ s : State, exec (.nonInstructionWord 0) s = .next (s.takeTrap 48 0)) ∧
      ∀ (s : State) (w : Word32), w ≠ 0 → exec (.nonInstructionWord w) s = .next (s.takeTrap 2 (w.setWidth 64))) ∧
  (∀ s : State,
      exec .ecall s = .next (s.takeTrap (match s.core.priv with | .user => 8 | .supervisor => 9 | .machine => 11) 0) ∧
        exec .ebreak s = .next (s.takeTrap 3 s.core.pc)) ∧
  (∀ (s : State) (r1 r2 : BitVec 5) (rel dir : BitVec 1) (item : BitVec 2),
      ∀ i ∈ [Instr.mtfetch r1, .mtfetchNz r1 r2, .mtfetchZ r1 r2, .mtstop, .mtsend rel dir r1, .mtrecv rel dir r1, .mtid item r1],
        exec i s = .next (s.takeTrap 2 (s.core.ir.setWidth 64)))

/-- x0 reads zero in every state, a write of it changes nothing, and a write of another register reads back and leaves
the rest (R59). -/
def Obligations.ZeroRegister : Prop :=
  (∀ s : State, s.x 0 = 0) ∧ (∀ (s : State) (v : Word), s.setX 0 v = s) ∧
    ∀ (s : State) (r q : BitVec 5) (v : Word), r ≠ 0 → (s.setX r v).x q = if q = r then v else s.x q

/-! ### Traps -/

/-- A synchronous exception that is delegated and not redirected, or whose redirect's store faults, enters supervisor mode: sepc,
scause and stval are written, SIE is cleared into SPIE, SPP tells the mode left, DEPTH counts the entry, execution continues at the base of
stvec, the data cache and the scalar reservation go, and no general register and no byte of memory changes (R328,
R334). One that is not delegated enters machine mode with mepc, mcause and mtval; so does a delegated one raised in
supervisor mode at the nesting limit, which is fatal: every core halts (R334, R380); cause 52 is asynchronous, and the
limit does not hold it back (R331). One that is redirected writes the pc, the cause and stval at offsets 8, 16 and 24 of its block,
and no other byte but those of the leaf that maps it, and sets ACTIVE; the data cache and the reservation go, no register changes,
and execution continues at HANDLER in user mode (R352). An interrupt that is pending, enabled and delegated is taken below machine
mode: sepc, scause and stval are written, SIE is cleared into SPIE, SPP tells the mode left, DEPTH counts the entry, the data cache
and the reservation go, execution continues where stvec's mode sends it, and the interrupt stays pending; one that is not delegated
enters machine mode in the same way with mepc, mcause and mtval (R332 to R334). -/
def Obligations.TrapAndInterruptEntry : Prop :=
  (∀ (s : State) (c : Nat) (v : Word),
      (s.landAll.redirects c = false ∨ ∃ e u, storeRedirect c v s.landAll = .error e u) → c < 64 →
      (s.core.priv ≠ .machine → bit s.core.csr.medeleg c = true →
        (s.core.priv = .user ∨ s.core.csr.trapDepth ≠ s.core.csr.trapLimit ∨ c = 52) →
        let t := s.takeTrap c v
        t.core.priv = .supervisor ∧ t.core.csr.sepc = s.core.pc ∧ t.core.csr.scause = BitVec.ofNat 64 c ∧
          t.core.csr.stval = v ∧ t.core.pc = s.core.csr.stvec &&& ~~~3#64 ∧
          bit t.core.csr.mstatus 1 = false ∧ bit t.core.csr.mstatus 5 = bit s.core.csr.mstatus 1 ∧
          bit t.core.csr.mstatus 8 = decide (s.core.priv ≠ .user) ∧
          (s.core.priv = .user → t.core.csr.trapDepth = 1) ∧
          (s.core.priv = .supervisor → s.core.csr.trapDepth ≠ 7 → t.core.csr.trapDepth = s.core.csr.trapDepth + 1) ∧
          t.core.dcache = [] ∧ t.core.reservation = none ∧ t.core.regs = s.core.regs ∧ t.core.fregs = s.core.fregs ∧
          t.core.vec.vrf = s.core.vec.vrf ∧ t.core.csr.mepc = s.core.csr.mepc ∧ SameMemory s t) ∧
      (s.core.priv = .machine ∨ bit s.core.csr.medeleg c = false ∨
          s.core.priv = .supervisor ∧ s.core.csr.trapDepth = s.core.csr.trapLimit ∧ c ≠ 52 →
        let t := s.takeTrap c v
        t.core.priv = .machine ∧ t.core.csr.mepc = s.core.pc ∧ t.core.csr.mcause = BitVec.ofNat 64 c ∧
          t.core.csr.mtval = v ∧ t.core.pc = s.core.csr.mtvec &&& ~~~3#64 ∧ bit t.core.csr.mstatus 3 = false ∧
          bit t.core.csr.mstatus 7 = bit s.core.csr.mstatus 3 ∧ field t.core.csr.mstatus 11 2 = s.core.priv.code ∧
          t.core.dcache = [] ∧ t.core.reservation = none ∧ t.core.regs = s.core.regs ∧ t.core.fregs = s.core.fregs ∧
          t.core.csr.sepc = s.core.csr.sepc ∧
          (s.core.priv = .machine ∨ bit s.core.csr.medeleg c = false → SameMemory s t) ∧
          (s.core.priv ≠ .machine → bit s.core.csr.medeleg c = true →
            t.dev.service = .fatal ∧ ∀ k ∈ t.cores, k.run = .halted))) ∧
  (∀ (s u : State) (c : Nat) (v : Word) (x : Xlated),
      let r := s.core.redirect
      let a := r.block + 8
      s.Inv → s.mem.discards = [] → s.core.id < coreCount → r.block.toNat % 32 = 0 →
      s.core.priv = .user → c ∈ [26, 27, 28, 29, 31, 49, 50, 53] → bit r.mask c = true → r.active = false →
      translate s.landAll.dataSpace .store .none a s.landAll = .ok x u → x.discarded = false → u.Clear .store x a true →
      let t := s.takeTrap c v
      t.core.pc = r.handler ∧ t.core.priv = .user ∧ t.core.redirect = { r with active := true } ∧ t.core.dcache = [] ∧
        t.core.reservation = none ∧ t.core.regs = s.core.regs ∧ t.core.fregs = s.core.fregs ∧ t.core.csr = s.core.csr ∧
        t.core.vec.vrf = s.core.vec.vrf ∧
        t.readPA x.pa 8 = s.core.pc.toNat ∧ t.readPA (x.pa + 8) 8 = c ∧ t.readPA (x.pa + 16) 8 = v.toNat ∧
        ∀ b, Apart b 1 x.pa 24 → (∀ p, x.leaf = some p → Apart b 1 p.2.pteAddr 8) → t.byteAt b = s.byteAt b) ∧
  (∀ (s : State) (n : Nat), n < 64 → s.enabledInterrupt = some n →
      let t := s.takeInterrupt n
      let cause := BitVec.ofNat 64 n ||| 0x8000000000000000#64
      let value : Word := if n = 16 then BitVec.ofNat 64 s.core.stopCause else 0
      let entry (vec : Word) : Word := (vec &&& ~~~3#64) + (if field vec 0 2 = 1 then BitVec.ofNat 64 (4 * n) else 0)
      t.core.csr.mip = s.core.csr.mip ∧ t.core.dcache = [] ∧ t.core.reservation = none ∧ t.core.regs = s.core.regs ∧
        t.core.fregs = s.core.fregs ∧ t.core.vec.vrf = s.core.vec.vrf ∧ SameMemory s t ∧
        (bit s.core.csr.mideleg n = true → s.core.priv ≠ .machine →
          t.core.priv = .supervisor ∧ t.core.csr.sepc = s.core.pc ∧ t.core.csr.scause = cause ∧ t.core.csr.stval = value ∧
            t.core.pc = entry s.core.csr.stvec ∧ bit t.core.csr.mstatus 1 = false ∧
            bit t.core.csr.mstatus 5 = bit s.core.csr.mstatus 1 ∧
            bit t.core.csr.mstatus 8 = decide (s.core.priv ≠ .user) ∧
            (s.core.priv = .user → t.core.csr.trapDepth = 1) ∧
            (s.core.priv = .supervisor → s.core.csr.trapDepth ≠ 7 → t.core.csr.trapDepth = s.core.csr.trapDepth + 1) ∧
            t.core.csr.mepc = s.core.csr.mepc) ∧
        (bit s.core.csr.mideleg n = false →
          t.core.priv = .machine ∧ t.core.csr.mepc = s.core.pc ∧ t.core.csr.mcause = cause ∧ t.core.csr.mtval = value ∧
            t.core.pc = entry s.core.csr.mtvec ∧ bit t.core.csr.mstatus 3 = false ∧
            bit t.core.csr.mstatus 7 = bit s.core.csr.mstatus 3 ∧ field t.core.csr.mstatus 11 2 = s.core.priv.code ∧
            t.core.csr.sepc = s.core.csr.sepc ∧ t.core.csr.trapDepth = s.core.csr.trapDepth))

/-- `sret` outside user mode, without TSR and with no quiescence stop to meet, returns to the mode SPP names at sepc,
with SIE taken from SPIE, SPP cleared, DEPTH lowered (0 in user mode), and the data cache and the reservation gone; to user mode
it makes a siding Shadow that is Held for the running continuation, and it leaves every other siding (R334, R340, R353); `mret` in
machine mode does the like from mepc. -/
def Obligations.TrapReturns : Prop :=
  ∀ s : State,
    (s.core.priv ≠ .user → (s.core.priv = .machine ∨ bit s.core.csr.mstatus 22 = false) →
      (bit s.core.csr.mstatus 8 = true ∨ s.mustStop s.core.id = false) →
      ∃ t, exec .sret s = .next t ∧ t.core.pc = s.core.csr.sepc ∧
        t.core.priv = (if bit s.core.csr.mstatus 8 then Priv.supervisor else .user) ∧
        bit t.core.csr.mstatus 1 = bit s.core.csr.mstatus 5 ∧ bit t.core.csr.mstatus 5 = true ∧
        bit t.core.csr.mstatus 8 = false ∧ (bit s.core.csr.mstatus 8 = false → t.core.csr.trapDepth = 0) ∧
        (bit s.core.csr.mstatus 8 = true → s.core.csr.trapDepth ≠ 0 →
          t.core.csr.trapDepth = s.core.csr.trapDepth - 1) ∧
        (let d := s.core.siding
         let own := d.state = .held ∧ ∃ k h, s.core.cont = some k ∧ d.holder = some h ∧ d.record = k.record ∧ h.region = k.region
         (bit s.core.csr.mstatus 8 = false → own → t.core.siding = { d with state := .shadow }) ∧
          (bit s.core.csr.mstatus 8 = true ∨ ¬own → t.core.siding = d)) ∧
        t.core.dcache = [] ∧ t.core.reservation = none ∧ t.core.regs = s.core.regs ∧ SameMemory s t) ∧
    (s.core.priv = .machine →
      ∃ t, exec .mret s = .next t ∧ t.core.pc = s.core.csr.mepc ∧
        t.core.priv = privOf (field s.core.csr.mstatus 11 2) ∧
        bit t.core.csr.mstatus 3 = bit s.core.csr.mstatus 7 ∧ bit t.core.csr.mstatus 7 = true ∧
        field t.core.csr.mstatus 11 2 = 0 ∧ t.core.dcache = [] ∧ t.core.reservation = none ∧
        t.core.regs = s.core.regs ∧ SameMemory s t) ∧
    (s.core.priv = .user → exec .sret s = .next (s.takeTrap 2 (s.core.ir.setWidth 64))) ∧
    (s.core.priv ≠ .machine → exec .mret s = .next (s.takeTrap 2 (s.core.ir.setWidth 64)))

/-! ### The control thread -/

/-- Every integer register instruction of RV64I and M writes its result to x[rd], retires, and changes nothing else
(R58, R59). -/
def Obligations.IntegerResults : Prop :=
  ∀ (s : State) (rd rs1 rs2 sh5 : BitVec 5) (imm : BitVec 12) (upper : BitVec 20) (sh6 : BitVec 6),
    let a := s.x rs1
    let b := s.x rs2
    let i : Word := imm.signExtend 64
    let lo (v : Word) : Word32 := v.setWidth 32
    let w (v : Word32) : Word := v.signExtend 64
    let one (c : Bool) : Word := if c then 1 else 0
    ∀ p ∈ ([(.lui rd upper, (upper ++ 0#12).signExtend 64),
        (.auipc rd upper, s.core.pc + (upper ++ 0#12).signExtend 64),
        (.addi rd rs1 imm, a + i), (.slti rd rs1 imm, one (decide (a.toInt < i.toInt))),
        (.sltiu rd rs1 imm, one (decide (a.toNat < i.toNat))), (.xori rd rs1 imm, a ^^^ i),
        (.ori rd rs1 imm, a ||| i), (.andi rd rs1 imm, a &&& i), (.addiw rd rs1 imm, w (lo (a + i))),
        (.slli rd rs1 sh6, a <<< sh6.toNat), (.srli rd rs1 sh6, a >>> sh6.toNat),
        (.srai rd rs1 sh6, a.sshiftRight sh6.toNat), (.slliw rd rs1 sh5, w (lo a <<< sh5.toNat)),
        (.srliw rd rs1 sh5, w (lo a >>> sh5.toNat)), (.sraiw rd rs1 sh5, w ((lo a).sshiftRight sh5.toNat)),
        (.add rd rs1 rs2, a + b), (.sub rd rs1 rs2, a - b), (.sll rd rs1 rs2, a <<< (b.toNat % 64)),
        (.srl rd rs1 rs2, a >>> (b.toNat % 64)), (.sra rd rs1 rs2, a.sshiftRight (b.toNat % 64)),
        (.slt rd rs1 rs2, one (decide (a.toInt < b.toInt))), (.sltu rd rs1 rs2, one (decide (a.toNat < b.toNat))),
        (.xor rd rs1 rs2, a ^^^ b), (.or rd rs1 rs2, a ||| b), (.and rd rs1 rs2, a &&& b),
        (.mul rd rs1 rs2, a * b), (.mulh rd rs1 rs2, BitVec.ofInt 64 (a.toInt * b.toInt / 2 ^ 64)),
        (.mulhsu rd rs1 rs2, BitVec.ofInt 64 (a.toInt * b.toNat / 2 ^ 64)),
        (.mulhu rd rs1 rs2, BitVec.ofInt 64 ((a.toNat : Int) * b.toNat / 2 ^ 64)),
        (.div rd rs1 rs2, if b = 0 then -1 else a.sdiv b), (.divu rd rs1 rs2, if b = 0 then -1 else a / b),
        (.rem rd rs1 rs2, if b = 0 then a else a.srem b), (.remu rd rs1 rs2, if b = 0 then a else a % b),
        (.addw rd rs1 rs2, w (lo a + lo b)), (.subw rd rs1 rs2, w (lo a - lo b)),
        (.sllw rd rs1 rs2, w (lo a <<< (b.toNat % 32))), (.srlw rd rs1 rs2, w (lo a >>> (b.toNat % 32))),
        (.sraw rd rs1 rs2, w ((lo a).sshiftRight (b.toNat % 32))), (.mulw rd rs1 rs2, w (lo a * lo b)),
        (.divw rd rs1 rs2, w (if lo b = 0 then -1 else (lo a).sdiv (lo b))),
        (.divuw rd rs1 rs2, w (if lo b = 0 then -1 else lo a / lo b)),
        (.remw rd rs1 rs2, w (if lo b = 0 then lo a else (lo a).srem (lo b))),
        (.remuw rd rs1 rs2, w (if lo b = 0 then lo a else lo a % lo b))] : List (Instr × Word)),
      ∃ t, exec p.1 s = .next t ∧ WritesX rd p.2 s t

/-- JAL and JALR link and continue at their target where it is a multiple of 4, and elsewhere raise cause 0 with stval
the target and write no register (R59, R60). A branch whose condition fails only retires; one that is taken continues
at its target where that is a multiple of 4, and elsewhere raises cause 0 with stval the target; neither writes a
register (R59, R60). -/
def Obligations.JumpsAndBranches : Prop :=
  (∀ (s : State) (rd rs1 : BitVec 5) (off : BitVec 20) (imm : BitVec 12),
      ∀ p ∈ ([(.jal rd off, s.core.pc + (off ++ 0#1).signExtend 64),
          (.jalr rd rs1 imm, (s.x rs1 + imm.signExtend 64) &&& ~~~1#64)] : List (Instr × Word)),
        (p.2.toNat % 4 = 0 → ∃ t, exec p.1 s = .next t ∧ t.core.pc = p.2 ∧
          t.x rd = (if rd = 0 then 0 else s.core.pc + 4) ∧ FrameX rd s t) ∧
        (p.2.toNat % 4 ≠ 0 → exec p.1 s = .next (s.takeTrap 0 p.2))) ∧
  (∀ (s : State) (rs1 rs2 : BitVec 5) (off : BitVec 12),
      let a := s.x rs1
      let b := s.x rs2
      let target := s.core.pc + (off ++ 0#1).signExtend 64
      ∀ p ∈ ([(.beq rs1 rs2 off, a = b), (.bne rs1 rs2 off, a ≠ b), (.blt rs1 rs2 off, a.toInt < b.toInt),
          (.bge rs1 rs2 off, b.toInt ≤ a.toInt), (.bltu rs1 rs2 off, a.toNat < b.toNat),
          (.bgeu rs1 rs2 off, b.toNat ≤ a.toNat)] : List (Instr × Prop)),
        (¬p.2 → ∃ t, exec p.1 s = .next t ∧ Retired s t ∧ FrameX 0 s t) ∧
        (p.2 → target.toNat % 4 = 0 → ∃ t, exec p.1 s = .next t ∧ t.core.pc = target ∧ FrameX 0 s t) ∧
        (p.2 → target.toNat % 4 ≠ 0 → exec p.1 s = .next (s.takeTrap 0 target)))

/-- A translation that succeeds changes no register, and of memory at most the leaf that maps the address, whose A bit
is then set, and its S or N bit where the VMU streams or gathers (R185, R186). Other cores lose nothing but reservations by it, and
those on the leaf's line where the leaf changes (R62, R292). That what a walk writes for a core counts as that core's own write,
and what it writes for a copy engine as no core's, is the model's choice (log entry 94). -/
def Obligations.TranslationEffects : Prop :=
  ∀ (s s1 : State) (sp : Space) (acc : Acc) (mark : PageMark) (va : Word) (x : Xlated), s.Inv →
    translate sp acc mark va s = .ok x s1 →
    let c0 := { s.core with tlb := s1.core.tlb, vtlb := s1.core.vtlb }
    s1.Inv ∧ c0.LostReservations s1.core ∧ ((∀ n, sp.via ≠ .engine n) → s1.core = c0) ∧ s1.tick = s.tick ∧
      (x.leaf = none → SameMemory s s1) ∧
      (∀ c, c ≠ s.core.id → (s.coreOf c).LostReservations (s1.coreOf c)) ∧
      ∀ p, x.leaf = some p → p.1 = sp.via ∧ MemoryOutside p.2.pteAddr 8 s s1 ∧ bit p.2.pte 6 = true ∧
        (mark = .stream → bit p.2.pte 8 = true) ∧ (mark = .gather → bit p.2.pte 9 = true) ∧
        (s1.readPA p.2.pteAddr 8 ≠ s.readPA p.2.pteAddr 8 → ∀ c, c ≠ s.core.id →
          (∀ r, (s1.coreOf c).reservation = some r → sameLine p.2.pteAddr r.addr = false) ∧
            ∀ r ∈ (s1.coreOf c).vec.reservations, sameLine p.2.pteAddr r.addr = false)

/-- A load whose address is a multiple of its size reads its bytes little-endian: from the line of the data cache that
holds their sector, as zero from a discarded page, and else from memory; its value is extended as the mnemonic says,
and memory is as the translation left it; nothing else of the module differs but caches, translations in use, and by the walk the
reservations of other cores (R55, R56, R59, R62, R189, R376). A misaligned one raises cause 4 (R60). -/
def Obligations.Loads : Prop :=
  ∀ (s s1 : State) (rd rs1 : BitVec 5) (imm : BitVec 12) (x : Xlated),
    let va := s.x rs1 + imm.signExtend 64
    ∀ p ∈ ([(.lb rd rs1 imm, 1, fun v => BitVec.ofInt 64 (BitVec.ofNat 8 v).toInt),
        (.lh rd rs1 imm, 2, fun v => BitVec.ofInt 64 (BitVec.ofNat 16 v).toInt),
        (.lw rd rs1 imm, 4, fun v => BitVec.ofInt 64 (BitVec.ofNat 32 v).toInt),
        (.ld rd rs1 imm, 8, BitVec.ofNat 64), (.lbu rd rs1 imm, 1, BitVec.ofNat 64),
        (.lhu rd rs1 imm, 2, BitVec.ofNat 64), (.lwu rd rs1 imm, 4, BitVec.ofNat 64)] :
        List (Instr × Nat × (Nat → Word))),
      (va.toNat % p.2.1 ≠ 0 → exec p.1 s = .next (s.takeTrap 4 va)) ∧
      (va.toNat % p.2.1 = 0 → translate s.dataSpace .load .none va s = .ok x s1 →
        ∀ v, (x.discarded = true ∧ v = 0 ∨
            x.discarded = false ∧ (∃ l, s1.core.dataLine x.pa = some l ∧ l.serves x.pa = true ∧
              v = l.data.read (canonical x.pa) p.2.1) ∨
            x.discarded = false ∧ (∀ l, s1.core.dataLine x.pa = some l → l.serves x.pa = false) ∧
              s1.Clear .load x va false ∧
              v = s1.readPA x.pa p.2.1) →
          ∃ t, exec p.1 s = .next t ∧ t.x rd = (if rd = 0 then 0 else p.2.2 v) ∧ (∀ r, r ≠ rd → t.x r = s.x r) ∧
            Retired s t ∧ FrameRead s t ∧ SameMemory s1 t)

/-- A store whose address is a multiple of its size writes the low bytes of its register, little-endian, at the
translated address, and no other byte of what the translation and the page's first write left; nothing else of the module
differs but caches, translations and the reservations of other cores; a misaligned one raises cause 6 (R55, R59, R60, R62). -/
def Obligations.Stores : Prop :=
  ∀ (s s1 : State) (rs1 rs2 : BitVec 5) (imm : BitVec 12) (x : Xlated), s.Inv →
    let va := s.x rs1 + imm.signExtend 64
    ∀ p ∈ ([(.sb rs1 rs2 imm, 1, (s.x rs2).toNat), (.sh rs1 rs2 imm, 2, (s.x rs2).toNat),
        (.sw rs1 rs2 imm, 4, (s.x rs2).toNat), (.sd rs1 rs2 imm, 8, (s.x rs2).toNat)] : List (Instr × Nat × Nat)),
      (va.toNat % p.2.1 ≠ 0 → exec p.1 s = .next (s.takeTrap 6 va)) ∧
      (va.toNat % p.2.1 = 0 → translate s.dataSpace .store .none va s = .ok x s1 → s1.Clear .store x va true →
        ∃ t, exec p.1 s = .next t ∧ t.readPA x.pa p.2.1 = p.2.2 % 256 ^ p.2.1 ∧
          MemoryOutside x.pa p.2.1 (s1.dirtyPage (some s.core.id) x) t ∧ (∀ r, t.x r = s.x r) ∧ Retired s t ∧ FrameWrite s t)

/-- An AMO whose address is a multiple of its size gives x[rd] the old value, sign-extended, and stores what its
operation makes of it and of x[rs2]; a release (rl) waits until its phase is free to move and bumps it, and an acquire (aq)
empties the data cache (R59, R62, R306). LR gives x[rd] the value read, sign-extended, and takes a reservation at its physical address;
it stores nothing. SC with a reservation at its physical address less than 4,096 core cycles old stores and gives 0;
otherwise it gives 1 and stores nothing; either way the reservation is gone (R62). Nothing else of the module differs but
caches, translations and, by the store or the walk, the reservations of other cores. That a failing SC too translates as
a store, with A set in its leaf, and makes its race check is the model's choice (log entry 34). -/
def Obligations.ScalarAtomics : Prop :=
  (∀ (s s1 : State) (rd rs1 rs2 : BitVec 5) (aq rl : BitVec 1) (x : Xlated), s.Inv →
      let va := s.x rs1
      let m32 := 2 ^ 32
      let m64 := 2 ^ 64
      let sg (n v : Nat) : Int := if v < 2 ^ (n - 1) then v else (v : Int) - 2 ^ n
      ∀ p ∈ ([(.amoaddW rd rs1 rs2 aq rl, 4, .fetchAdd, fun a b => (a + b) % m32),
          (.amoaddD rd rs1 rs2 aq rl, 8, .fetchAdd, fun a b => (a + b) % m64),
          (.amoswapW rd rs1 rs2 aq rl, 4, .swap, fun _ b => b), (.amoswapD rd rs1 rs2 aq rl, 8, .swap, fun _ b => b),
          (.amoxorW rd rs1 rs2 aq rl, 4, .other, fun a b => a ^^^ b),
          (.amoxorD rd rs1 rs2 aq rl, 8, .other, fun a b => a ^^^ b),
          (.amoorW rd rs1 rs2 aq rl, 4, .other, fun a b => a ||| b),
          (.amoorD rd rs1 rs2 aq rl, 8, .other, fun a b => a ||| b),
          (.amoandW rd rs1 rs2 aq rl, 4, .other, fun a b => a &&& b),
          (.amoandD rd rs1 rs2 aq rl, 8, .other, fun a b => a &&& b),
          (.amominW rd rs1 rs2 aq rl, 4, .other, fun a b => if sg 32 a ≤ sg 32 b then a else b),
          (.amominD rd rs1 rs2 aq rl, 8, .other, fun a b => if sg 64 a ≤ sg 64 b then a else b),
          (.amomaxW rd rs1 rs2 aq rl, 4, .other, fun a b => if sg 32 a ≤ sg 32 b then b else a),
          (.amomaxD rd rs1 rs2 aq rl, 8, .other, fun a b => if sg 64 a ≤ sg 64 b then b else a),
          (.amominuW rd rs1 rs2 aq rl, 4, .other, fun a b => min a b),
          (.amominuD rd rs1 rs2 aq rl, 8, .other, fun a b => min a b),
          (.amomaxuW rd rs1 rs2 aq rl, 4, .other, fun a b => max a b),
          (.amomaxuD rd rs1 rs2 aq rl, 8, .other, fun a b => max a b)] :
          List (Instr × Nat × AtomicKind × (Nat → Nat → Nat))),
        let n := p.2.1
        (va.toNat % n ≠ 0 → exec p.1 s = .next (s.takeTrap 6 va)) ∧
        (va.toNat % n = 0 → ¬ReleaseFree rl s → exec p.1 s = .next s) ∧
        (va.toNat % n = 0 → ReleaseFree rl s →
          translate s.dataSpace .store .none va s = .ok x s1 → checkHostAtomic p.2.2.1 n x va s1 = .ok () s1 →
          (s1.mapCore (Core.dropData x.pa)).Clear .store x va true →
          let old := if x.discarded then 0 else s1.readPA x.pa n
          ∃ t, exec p.1 s = .next t ∧
            t.x rd = (if rd = 0 then 0 else BitVec.ofInt 64 (sg (8 * n) old)) ∧ (∀ r, r ≠ rd → t.x r = s.x r) ∧
            t.readPA x.pa n = p.2.2.2 old ((s.x rs2).toNat % 256 ^ n) ∧
            MemoryOutside x.pa n (s1.dirtyPage (some s.core.id) x) t ∧ (aq = 1 → t.core.dcache = []) ∧
            t.core.phase = (if rl = 1 then s.core.phase + 1 else s.core.phase) ∧ Retired s t ∧
            FrameWrite (s.afterRelease rl) t)) ∧
  (∀ (s : State) (rd rs1 rs2 : BitVec 5) (aq rl : BitVec 1), ¬ReleaseFree rl s →
      ∀ p ∈ ([(.lrW rd rs1 aq rl, 4), (.lrD rd rs1 aq rl, 8), (.scW rd rs1 rs2 aq rl, 4), (.scD rd rs1 rs2 aq rl, 8)] :
          List (Instr × Nat)), (s.x rs1).toNat % p.2 = 0 → exec p.1 s = .next s) ∧
  (∀ (s s1 : State) (rd rs1 rs2 : BitVec 5) (aq rl : BitVec 1) (x : Xlated), s.Inv → ReleaseFree rl s →
      let va := s.x rs1
      let s2 := s1.mapCore (Core.dropData x.pa)
      let holding (r : Option Reservation) : State := (s.afterRelease rl).mapCore fun c => { c with reservation := r }
      (∀ p ∈ ([(.lrW rd rs1 aq rl, 4), (.lrD rd rs1 aq rl, 8)] : List (Instr × Nat)),
        (va.toNat % p.2 ≠ 0 → exec p.1 s = .next (s.takeTrap 4 va)) ∧
        (va.toNat % p.2 = 0 → translate s.dataSpace .load .none va s = .ok x s1 → x.discarded = false →
          checkHostAtomic .reserve p.2 x va s1 = .ok () s1 → s2.Clear .load x va false →
          ∃ t, exec p.1 s = .next t ∧
            t.x rd = (if rd = 0 then 0 else sext (8 * p.2) (s1.readPA x.pa p.2)) ∧ (∀ r, r ≠ rd → t.x r = s.x r) ∧
            Retired s t ∧ FrameRead (holding (some ⟨x.pa, s.core.clock⟩)) t ∧ SameMemory s1 t)) ∧
      (∀ p ∈ ([(.scW rd rs1 rs2 aq rl, 4), (.scD rd rs1 rs2 aq rl, 8)] : List (Instr × Nat)),
        (va.toNat % p.2 ≠ 0 → exec p.1 s = .next (s.takeTrap 6 va)) ∧
        (va.toNat % p.2 = 0 → translate s.dataSpace .store .none va s = .ok x s1 →
          checkHostAtomic .other p.2 x va s1 = .ok () s1 →
          (∀ cyc, s2.Clear .store x va true → s.core.reservation = some ⟨x.pa, cyc⟩ → s.core.clock < cyc + 4096 →
            ∃ t, exec p.1 s = .next t ∧ t.x rd = 0 ∧ (∀ r, r ≠ rd → t.x r = s.x r) ∧
              t.readPA x.pa p.2 = (s.x rs2).toNat % 256 ^ p.2 ∧ MemoryOutside x.pa p.2 (s1.dirtyPage (some s.core.id) x) t ∧
              Retired s t ∧ FrameWrite (holding none) t) ∧
          ((∀ cyc, s.core.reservation = some ⟨x.pa, cyc⟩ → cyc + 4096 ≤ s.core.clock) → (s2.touch x.pa .normal false).NoRace x.pa →
            ∃ t, exec p.1 s = .next t ∧ t.x rd = (if rd = 0 then 0 else 1) ∧ (∀ r, r ≠ rd → t.x r = s.x r) ∧
              Retired s t ∧ FrameRead (holding none) t ∧ SameMemory s1 t))))

/-- FENCE, of fm 0 or 8, orders as its sets say: with an empty set it only retires; with W or O before it, it bumps the phase,
and waits where the last bump is less than 40 station ticks ago; with R or I after it, it empties the data cache. A word with
another fm decodes to nothing. FENCE.I empties the instruction cache and drops the block buffers that no micro-thread uses.
None of them changes a register or a byte of memory (R60, R61, R254, R276, R277). `kfence` orders as its sets and its scope
say: with an empty set it only retires; with W or O before it, at cluster scope or wider, it bumps the phase, and waits as FENCE
does; with R or I after it, it empties the data cache; a scope above 4 raises cause 2. `qdrain` retires once the queues it
names are empty and waits otherwise. That accesses are performed as they issue, so that qv and qm never hold an instruction and
a fence waits for none, is the model's choice (log entry 18). A reservation goes 4,096 core cycles after it was taken, and the
scrub of a slice removes the tags whose writer has released (R62, R283, R292, R296, R301). -/
def Obligations.FencesAndPromises : Prop :=
  (∀ (s : State) (fm pred succ : BitVec 4) (rs1 rd : BitVec 5) (imm : BitVec 12),
      let bump := pred &&& 5 ≠ 0
      (fm ≠ 0 → fm ≠ 8 → ∀ i, decode (fm ++ pred ++ succ ++ rs1 ++ 0#3 ++ rd ++ 0x0F#7) ≠ .ok i) ∧
      (fm = 0 ∨ fm = 8 →
        (pred = 0 ∨ succ = 0 → ∃ t, exec (.fence fm pred succ rs1 rd) s = .next t ∧ Retired s t ∧ FrameX 0 s t) ∧
        (pred ≠ 0 → succ ≠ 0 →
          ((bump → ReleaseFree 1 s) → ∃ t, exec (.fence fm pred succ rs1 rd) s = .next t ∧ Retired s t ∧
            t.core.phase = (if bump then s.core.phase + 1 else s.core.phase) ∧
            t.core.dcache = (if succ &&& 10 ≠ 0 then [] else s.core.dcache) ∧ t.core.regs = s.core.regs ∧
            FrameAccess (s.afterRelease (if bump then 1 else 0)) t ∧ SameMemory s t) ∧
          (bump → ¬ReleaseFree 1 s → exec (.fence fm pred succ rs1 rd) s = .next s))) ∧
      (∃ t, exec (.fenceI rd rs1 imm) s = .next t ∧ Retired s t ∧ t = { s with core := t.core } ∧
        t.core = { s.core.endInstr with pc := t.core.pc, instret := t.core.instret, icache := [],
                                        mt := { s.core.mt with buffers := t.core.mt.buffers } } ∧
        ∀ b, b ∈ t.core.mt.buffers ↔ b ∈ s.core.mt.buffers ∧ ∃ p ∈ s.core.mt.threads, p.2.line = some b.line)) ∧
  (∀ (s : State) (pred succ mask : BitVec 4) (scope : BitVec 3) (core index die slice : Nat),
      let bump := pred &&& 5 ≠ 0 ∧ scope ≠ 0
      let copies := mask.getLsbD 2 = true → s.core.qc = []
      let loads := mask.getLsbD 3 = true → s.core.vec.inFlight = [] ∧ SlotState.fillingLoad ∉ s.core.mat.slots.toList
      (s.core.vec.cfg.vlx = false →
        (4 < scope.toNat → exec (.kfence pred succ scope) s = .next (s.takeTrap 2 (s.core.ir.setWidth 64))) ∧
        (scope.toNat ≤ 4 → pred = 0 ∨ succ = 0 → ∃ t, exec (.kfence pred succ scope) s = .next t ∧ Retired s t ∧ FrameX 0 s t) ∧
        (scope.toNat ≤ 4 → pred ≠ 0 → succ ≠ 0 →
          ((bump → ReleaseFree 1 s) → ∃ t, exec (.kfence pred succ scope) s = .next t ∧ Retired s t ∧
            (bump → t.core.phase = s.core.phase + 1) ∧ (¬bump → t.core.phase = s.core.phase) ∧
            t.core.dcache = (if succ &&& 10 ≠ 0 then [] else s.core.dcache) ∧ KeepsOthers 0 s t ∧
            FrameAccess (s.afterRelease (if bump then 1 else 0)) t) ∧
          (bump → ¬ReleaseFree 1 s → exec (.kfence pred succ scope) s = .next s)) ∧
        (copies → loads → ∃ t, exec (.qdrain mask) s = .next t ∧ Retired s t ∧ FrameX 0 s t) ∧
        (¬copies → exec (.qdrain mask) s = .next s) ∧
        (copies → ¬loads → exec (.qdrain mask) s = .next s.stall)) ∧
      (core < 2304 →
        (∃ t, exec (.reservationTimeout core) s = .next t ∧ t.mem = s.mem ∧ ∀ r, (t.coreOf core).reservation = some r ↔
          (s.coreOf core).reservation = some r ∧ (s.coreOf core).clock < r.cycle + 4096) ∧
        (∃ t, exec (.vectorReservationTimeout core index) s = .next t ∧ t.mem = s.mem ∧
          ∀ r, r ∈ (t.coreOf core).vec.reservations ↔ r ∈ (s.coreOf core).vec.reservations ∧
            (r.element ≠ index ∨ (s.coreOf core).clock < r.cycle + 4096))) ∧
      (die < 24 → slice < 96 → ∃ t, exec (.tagScrub die slice) s = .next t ∧ t.core = s.core ∧ SameMemory s t ∧
        ∀ g, g ∈ t.mem.tags ↔ g ∈ s.mem.tags ∧ (homeSlice (g.sector * 32) ≠ 96 * die + slice ∨ s.unreleased g = true)))

/-- With FS on and a rounding mode that names one, each F instruction that rounds into an f register writes the
rounded value and accumulates its flags (R58, R60). -/
def Obligations.FloatResults : Prop :=
  ∀ (s : State) (rd rs1 rs2 rs3 : BitVec 5) (rm : BitVec 3),
    let code := if rm = 7 then s.core.frm else rm
    s.fpOn = true → code.toNat < 5 →
    let r := Rounding.ofCode code
    let a := fp32.value (s.f rs1).toNat
    let b := fp32.value (s.f rs2).toNat
    let c := fp32.value (s.f rs3).toNat
    ∀ p ∈ ([(.faddS rd rs1 rs2 rm, fp32.add r a b), (.fsubS rd rs1 rs2 rm, fp32.sub r a b),
        (.fmulS rd rs1 rs2 rm, fp32.mul r a b), (.fdivS rd rs1 rs2 rm, fp32.div r a b),
        (.fsqrtS rd rs1 rm, fp32.sqrt r a), (.fmaddS rd rs1 rs2 rs3 rm, fp32.fma r false false a b c),
        (.fmsubS rd rs1 rs2 rs3 rm, fp32.fma r false true a b c),
        (.fnmsubS rd rs1 rs2 rs3 rm, fp32.fma r true false a b c),
        (.fnmaddS rd rs1 rs2 rs3 rm, fp32.fma r true true a b c),
        (.fcvtSW rd rs1 rm, fp32.rnd r (FVal.ofInt ((s.x rs1).setWidth 32).toInt)),
        (.fcvtSWu rd rs1 rm, fp32.rnd r (FVal.ofInt ((s.x rs1).setWidth 32).toNat)),
        (.fcvtSL rd rs1 rm, fp32.rnd r (FVal.ofInt (s.x rs1).toInt)),
        (.fcvtSLu rd rs1 rm, fp32.rnd r (FVal.ofInt (s.x rs1).toNat))] : List (Instr × Nat × Flags)),
      ∃ t, exec p.1 s = .next t ∧ WritesF rd (BitVec.ofNat 32 p.2.1) p.2.2 s t

/-- With FS on, the F instructions that do not round: sign injection, minimum and maximum and FMV.W.X into an f
register; compares, conversions to integers, FMV.X.W and FCLASS into an x register (R58, R60). With FS Off each raises
cause 2. With FS on, FLW reads four bytes into f[rd] and FSW writes the four bytes of f[rs2], as LW and SW do, misaligned
addresses included (R58 to R60). -/
def Obligations.FloatMovesAndAccesses : Prop :=
  (∀ (s : State) (rd rs1 rs2 : BitVec 5) (rm : BitVec 3),
      let a := s.f rs1
      let b := s.f rs2
      let code := if rm = 7 then s.core.frm else rm
      let sg (neg : Bool) : Word32 := a &&& 0x7FFFFFFF#32 ||| (if neg then 0x80000000#32 else 0)
      let one (p : Bool × Flags) : Word × Flags := (if p.1 then 1 else 0, p.2)
      let toX (n : Nat) (p : Int × Flags) : Word × Flags := (BitVec.ofInt 64 (BitVec.ofInt n p.1).toInt, p.2)
      let writesF : List (Instr × Word32 × Flags) :=
        [(.fsgnjS rd rs1 rs2, sg b.msb, 0), (.fsgnjnS rd rs1 rs2, sg (!b.msb), 0),
          (.fsgnjxS rd rs1 rs2, sg (a.msb != b.msb), 0),
          (.fminS rd rs1 rs2, BitVec.ofNat 32 (fp32.bound false a.toNat b.toNat).1, (fp32.bound false a.toNat b.toNat).2),
          (.fmaxS rd rs1 rs2, BitVec.ofNat 32 (fp32.bound true a.toNat b.toNat).1, (fp32.bound true a.toNat b.toNat).2),
          (.fmvWX rd rs1, (s.x rs1).setWidth 32, 0)]
      let writesX : List (Instr × Word × Flags) :=
        [(.fleS rd rs1 rs2, one (fp32.compare 3 a.toNat b.toNat)), (.fltS rd rs1 rs2, one (fp32.compare 2 a.toNat b.toNat)),
          (.feqS rd rs1 rs2, one (fp32.compare 0 a.toNat b.toNat)), (.fmvXW rd rs1, a.signExtend 64, 0),
          (.fclassS rd rs1, BitVec.ofNat 64 (fp32.classOf a.toNat), 0)]
      let r := Rounding.ofCode code
      let x := fp32.value a.toNat
      let converts : List (Instr × Word × Flags) :=
        [(.fcvtWS rd rs1 rm, toX 32 (toIntReg 32 true r x)), (.fcvtWuS rd rs1 rm, toX 32 (toIntReg 32 false r x)),
          (.fcvtLS rd rs1 rm, toX 64 (toIntReg 64 true r x)), (.fcvtLuS rd rs1 rm, toX 64 (toIntReg 64 false r x))]
      (s.fpOn = true → (∀ p ∈ writesF, ∃ t, exec p.1 s = .next t ∧ WritesF rd p.2.1 p.2.2 s t) ∧
        (∀ p ∈ writesX, ∃ t, exec p.1 s = .next t ∧ WritesXFlags rd p.2.1 p.2.2 s t) ∧
        (code.toNat < 5 → ∀ p ∈ converts, ∃ t, exec p.1 s = .next t ∧ WritesXFlags rd p.2.1 p.2.2 s t)) ∧
      (s.fpOn = false → ∀ p ∈ writesF.map (·.1) ++ writesX.map (·.1) ++ converts.map (·.1),
        exec p s = .next (s.takeTrap 2 (s.core.ir.setWidth 64)))) ∧
  (∀ (s s1 : State) (rd rs1 rs2 : BitVec 5) (imm : BitVec 12) (x : Xlated), s.Inv → s.fpOn = true →
      let va := s.x rs1 + imm.signExtend 64
      (va.toNat % 4 ≠ 0 → exec (.flw rd rs1 imm) s = .next (s.takeTrap 4 va) ∧
        exec (.fsw rs1 rs2 imm) s = .next (s.takeTrap 6 va)) ∧
      (va.toNat % 4 = 0 → translate s.dataSpace .load .none va s = .ok x s1 →
        ∀ v, (x.discarded = true ∧ v = 0 ∨
            x.discarded = false ∧ (∃ l, s1.core.dataLine x.pa = some l ∧ l.serves x.pa = true ∧
              v = l.data.read (canonical x.pa) 4) ∨
            x.discarded = false ∧ (∀ l, s1.core.dataLine x.pa = some l → l.serves x.pa = false) ∧
              s1.Clear .load x va false ∧ v = s1.readPA x.pa 4) →
          ∃ t, exec (.flw rd rs1 imm) s = .next t ∧ t.f rd = BitVec.ofNat 32 v ∧ t.core.regs = s.core.regs ∧ Retired s t ∧
            FrameRead (s.setF rd (BitVec.ofNat 32 v)) t ∧ SameMemory s1 t) ∧
      (va.toNat % 4 = 0 → translate s.dataSpace .store .none va s = .ok x s1 → s1.Clear .store x va true →
        ∃ t, exec (.fsw rs1 rs2 imm) s = .next t ∧ t.readPA x.pa 4 = (s.f rs2).toNat ∧
          MemoryOutside x.pa 4 (s1.dirtyPage (some s.core.id) x) t ∧ t.core.regs = s.core.regs ∧ Retired s t ∧ FrameWrite s t))

/-- What the floating-point functions give, in the six formats (R134 to R138, R146, R147, R149, R150, R155, R163, R175). The value of
a code is its magnitude, and a value that is a code's rounds to that code with no flag. Any other exact value rounds to a neighbour
as the mode says, with NX where it is inexact, UF where it is tiny too, and OF and NX where it overflows, under stochastic rounding
as R163 computes it. A sum and a product are the exact ones rounded once, a quotient and a root likewise; opposite infinities in a
sum give the canonical NaN with NV whatever else is in it. 2^n and log2 of 2^n are exact. Compares, bounds and the rounding to an
integer follow the values. -/
def Obligations.RoundingLaw : Prop :=
  ∀ f ∈ [fp32, fp16, bf16, e4m3, e5m2, e2m1],
    (∀ (n : Bool) (c : Nat), c ≤ f.maxCode → ∃ m e, f.value (f.sign n + c) = .fin n m e ∧ f.emin ≤ e ∧
      m * 2 ^ (e - f.emin).toNat = f.units c) ∧
    (∀ (r : Rounding) (c : Nat), (∀ v, r = .sr v → v < 65536) → c < 2 ^ f.width → (f.value c).isNan = false →
      f.rnd r (f.value c) = (c, 0)) ∧
    (∀ (r : Rounding) (n : Bool) (e : Int), f.rnd r (.fin n 0 e) = (f.sign n, 0)) ∧
    (∀ (r : Rounding) (q : Bool), f.rnd r (.nan q) = (f.qnan, flagIf q flagNV)) ∧
    (∀ (r : Rounding) (n n' : Bool) (m m' : Nat) (e e' : Int), r.isStochastic = false → m ≠ 0 →
      (let e1 := min e (f.emin - 2)
       f.Rounds r n (fun k => compare (k * 2 ^ (f.emin - 2 - e1).toNat) (m * 2 ^ (e - e1).toNat)) (f.rnd r (.fin n m e))) ∧
      (m < 2 ^ 24 → 0 < m' → m' < 2 ^ 24 →
        let e1 := min (f.emin - 2 + e') e
        f.Rounds r (n != n') (fun k => compare (k * m' * 2 ^ (f.emin - 2 + e' - e1).toNat) (m * 2 ^ (e - e1).toNat))
          (f.div r (.fin n m e) (.fin n' m' e'))) ∧
      (m < 2 ^ 24 →
        let e1 := min (2 * (f.emin - 2)) e
        f.Rounds r false (fun k => compare (k * k * 2 ^ (2 * (f.emin - 2) - e1).toNat) (m * 2 ^ (e - e1).toNat))
          (f.sqrt r (.fin false m e)))) ∧
    (∀ (v m : Nat) (n : Bool) (e : Int), v < 65536 → m ≠ 0 →
      let e1 := min e f.emin
      let u := 2 ^ (f.emin - e1).toNat
      let x := m * 2 ^ (e - e1).toNat
      let result := f.rnd (.sr v) (.fin n m e)
      ∃ lo, f.units lo * u ≤ x ∧ x < f.units (lo + 1) * u ∧
        let exact := decide (f.units lo * u = x)
        let t := (x - f.units lo * u) * 65536 / ((f.units (lo + 1) - f.units lo) * u)
        let beyond := f.maxCode < lo ∨ lo = f.maxCode ∧ exact = false
        (beyond → result = (f.sign n + f.maxCode, flagOF ||| flagNX)) ∧
        (¬beyond → result.1 = f.sign n + (if 65536 ≤ t + v then lo + 1 else lo) ∧
          result.2 &&& ~~~flagUF = flagIf (!exact) flagNX ∧
          (result.2 &&& flagUF ≠ 0 → exact = false ∧ x < 2 ^ f.mbits * u))) ∧
    (∀ (r : Rounding) (n n' : Bool) (m m' : Nat) (e e' : Int),
      let a := FVal.fin n m e
      let b := FVal.fin n' m' e'
      let z := (if n then -(m : Int) else m) * 2 ^ (e - min e e').toNat + (if n' then -(m' : Int) else m') * 2 ^ (e' - min e e').toNat
      let p := FVal.fin (n != n') (m * m') (e + e')
      (z ≠ 0 → f.add r a b = f.rnd r (.fin (decide (z < 0)) z.natAbs (min e e'))) ∧
      (z = 0 → f.add r a b = (f.sign (if m = 0 ∧ m' = 0 ∧ n = n' then n else r == .rdn), 0)) ∧
      f.sub r a b = f.add r a (.fin (!n') m' e') ∧ f.mul r a b = f.rnd r p ∧
      ∀ (x : Bool) (d : FVal), f.fma r x false a b d = f.add r (p.negIf x) d ∧ f.fma r x true a b d = f.add r (p.negIf x) (d.negIf true)) ∧
    (∀ (r : Rounding) (terms : List FVal), .inf false ∈ terms → .inf true ∈ terms → f.sum r terms = (f.qnan, flagNV)) ∧
    (∀ (r : Rounding) (n : Int), n.natAbs < 512 → f.exp2 r (FVal.ofInt n) = f.rnd r (.fin false 1 n)) ∧
    (∀ (k : Nat) (e : Int), f.log2 (.fin false (2 ^ k) e) = f.rnd .rtz (FVal.ofInt (e + k))) ∧
    (∀ (n n' : Bool) (c c' : Nat), c ≤ f.maxCode → c' ≤ f.maxCode →
      let a := f.sign n + c
      let b := f.sign n' + c'
      let x := f.signedUnits n c
      let y := f.signedUnits n' c'
      let below := x < y ∨ x = y ∧ n = true
      (∀ p ∈ ([(0, x = y), (1, x ≠ y), (2, x < y), (3, x ≤ y), (4, y < x), (5, y ≤ x), (6, True), (7, False)] : List (Nat × Prop)),
        ((f.compare p.1 a b).1 = true ↔ p.2) ∧ (f.compare p.1 a b).2 = 0) ∧
      f.bound false a b = (if below then a else b, 0) ∧ f.bound true a b = (if below then b else a, 0)) ∧
    (∀ (r : Rounding) (n : Bool) (m : Nat) (e : Int), r.isStochastic = false →
      let e1 := min e (-1)
      let cmp (k : Nat) : Ordering := compare (k * 2 ^ (-1 - e1).toNat) (m * 2 ^ (e - e1).toNat)
      ∃ lo, cmp (2 * lo) ≠ .gt ∧ cmp (2 * (lo + 1)) = .gt ∧
        let exact := cmp (2 * lo) == .eq
        let k : Nat := if !exact && r.takesUpper n (lo % 2 == 1) (cmp (2 * lo + 1)) then lo + 1 else lo
        (FVal.fin n m e).toInteger r = (if n then -(k : Int) else k, !exact))

/-! ### CSRs and system instructions -/

/-- A CSR instruction, once no micro-thread is executing a word, gives x[rd] the old value and writes the new one where it
writes at all; an address that is undefined or that the mode may not access, and a write to the read-only range, raise
cause 2 (R5, R63). cycle, time, ksttime and kpwgrant are read without waiting for micro-threads (R63, R364); kxstatus and
kmctl wait while an operand-store slot is being loaded (R63, R233, R234). -/
def Obligations.CsrInstructions : Prop :=
  ∀ (s : State) (rd rs1 uimm : BitVec 5) (csr : BitVec 12),
    let a := csr.toNat
    let i : Word := uimm.setWidth 64
    let table (old : Word) : List (Instr × Bool × Word) :=
      [(.csrrw rd rs1 csr, true, s.x rs1), (.csrrs rd rs1 csr, decide (rs1 ≠ 0), old ||| s.x rs1),
        (.csrrc rd rs1 csr, decide (rs1 ≠ 0), old &&& ~~~(s.x rs1)), (.csrrwi rd uimm csr, true, i),
        (.csrrsi rd uimm csr, decide (uimm ≠ 0), old ||| i), (.csrrci rd uimm csr, decide (uimm ≠ 0), old &&& ~~~i)]
    let atOnce := csr = 0xC00 ∨ csr = 0xC01 ∨ csr = 0xCC9 ∨ csr = 0xCCA
    let waits := (csr = 0xCC4 ∨ csr = 0x5C8) ∧ SlotState.fillingLoad ∈ s.core.mat.slots.toList
    s.NoneExecuting ∨ atOnce →
    (s.readCsr a = none → ∀ p ∈ table 0, exec p.1 s = .next (s.takeTrap 2 (s.core.ir.setWidth 64))) ∧
    ∀ old, s.readCsr a = some old → ∀ p ∈ table old,
      (p.2.1 = true → a / 1024 = 3 → exec p.1 s = .next (s.takeTrap 2 (s.core.ir.setWidth 64))) ∧
      (p.2.1 = false ∨ a / 1024 ≠ 3 → waits → exec p.1 s = .next s.stall) ∧
      (p.2.1 = false → ¬waits → ∃ t, exec p.1 s = .next t ∧ WritesX rd old s t) ∧
      (p.2.1 = true → a / 1024 ≠ 3 → ¬waits → ∃ t, exec p.1 s = .next t ∧ t = ((s.writeCsr a p.2.2).setX rd old).retire ∧
        t.x rd = (if rd = 0 then 0 else old) ∧ (∀ r, r ≠ rd → t.x r = s.x r) ∧ t.core.pc = s.core.pc + 4 ∧ SameMemory s t)

/-- The user CSRs keep the bits that their field maps make RW and read their reserved bits as zero, and a write of one
leaves the others (R76, R90, R100, R103, R139, R159, R160, R211, R231, R232, R309). satp takes a value of mode 0
(Bare) or 14 whole, and keeps its old value against any other mode (R182). medeleg and mideleg take the bits that R328 names and
read the others as zero. A write of mstatus takes its fields SIE, MIE, SPIE, MPIE, SPP, FS, MPRV, SUM, MXR, TVM, TW and TSR,
and MPP where it names a mode (that MPP keeps its value against code 2 is the model's choice: log entry 5), and leaves its other bits; one of sstatus takes those of them that it shows. In mip and sip, bit 16
is read-only, and bits 17 to 19 are cleared by writing 0 and kept against 1 (R328). kregbase and kresvec read their reserved
bits as zero, ktrapctl takes LIMIT alone, 1 for 0, and ksiding nothing (R329). klanemap reads as its two halves; no CSR write
changes it, and the retirement of lanes clears the bits of those lanes and sets none (R19). -/
def Obligations.UserCsrFields : Prop :=
  (let csrs : List (Nat × Word) := [(0x800, 0x1FFFF), (0x801, 0xFFFFFFFF), (0x802, 0x1F), (0x803, 0xFFFFFFFFF),
      (0x804, 0xFFFFFFFFFFFFFFFF), (0x805, 0xFFFFFFFFFFFFFFFF), (0x806, 0xFFFF), (0x807, 0xFFFF7FFF),
      (0x808, 0xFFFFFFFFFFFF), (0x809, 0xFFFFFFFFFFFFFF9F)]
    ∀ (s : State) (w : Word), ∀ p ∈ csrs,
      (s.writeCsr p.1 w).readCsr p.1 = some (w &&& p.2) ∧
        (∀ q ∈ csrs, q.1 ≠ p.1 → (s.writeCsr p.1 w).readCsr q.1 = s.readCsr q.1) ∧
        (s.writeCsr p.1 w).core.regs = s.core.regs ∧ SameMemory s (s.writeCsr p.1 w)) ∧
  (∀ (s : State) (w : Word), (s.writeCsr 0x180 w).core.csr.satp =
      if w.toNat / 2 ^ 60 = 0 ∨ w.toNat / 2 ^ 60 = 14 then w else s.core.csr.satp) ∧
  (∀ (s : State) (w : Word) (b : Nat), b < 64 →
      let c := s.core.csr
      let after (a : Nat) : Csrs := (s.writeCsr a w).core.csr
      let deleg := b ≤ 9 ∨ b = 12 ∨ b = 13 ∨ b = 15 ∨ 24 ≤ b ∧ b ≤ 31 ∨ 48 ≤ b ∧ b ≤ 53
      let fields := b ∈ [1, 3, 5, 7, 8, 13, 14, 17, 18, 19, 20, 21, 22]
      let shown := b ∈ [1, 5, 8, 13, 14, 18, 19]
      bit (after 0x302).medeleg b = (bit w b && decide deleg) ∧
        bit (after 0x303).mideleg b = (bit w b && decide (b = 1 ∨ b = 5 ∨ b = 9 ∨ 16 ≤ b ∧ b ≤ 19)) ∧
        (b ≠ 11 → b ≠ 12 → bit (after 0x300).mstatus b = if fields then bit w b else bit c.mstatus b) ∧
        field (after 0x300).mstatus 11 2 = (if field w 11 2 = 2 then field c.mstatus 11 2 else field w 11 2) ∧
        (bit (after 0x100).mstatus b = if shown then bit w b else bit c.mstatus b) ∧
        bit (after 0x344).mip 16 = bit c.mip 16 ∧ bit (after 0x144).mip 16 = bit c.mip 16 ∧
        (17 ≤ b → b ≤ 19 → bit (after 0x344).mip b = (bit c.mip b && bit w b) ∧
          bit (after 0x144).mip b = (bit c.mip b && (bit w b || !bit c.mideleg b)))) ∧
  (∀ (s : State) (w : Word),
      let after (a : Nat) : State := s.writeCsr a w
      (after 0x5C0).kregbase = w &&& ~~~0xFFFFF#64 ∧ (after 0x5C1).core.csr.kresvec = w &&& ~~~3#64 ∧ after 0x5C2 = s ∧
        (after 0x5C3).core.csr.trapDepth = s.core.csr.trapDepth ∧
        (after 0x5C3).core.csr.trapLimit.toNat = max 1 (w.toNat / 16 % 8)) ∧
  (∀ (s : State) (a : Nat) (w : Word), (s.writeCsr a w).core.vec.laneMap = s.core.vec.laneMap) ∧
  (∀ s : State, s.readCsr 0xCC7 = some (s.core.vec.laneMap.extractLsb' 0 64) ∧
      s.readCsr 0xCC8 = some (s.core.vec.laneMap.extractLsb' 64 64)) ∧
  (∀ (c : Core) (l : Nat),
      c.retireLanes.vec.laneMap.getLsbD l = (c.vec.laneMap.getLsbD l && !c.pendingRetire.getLsbD l))

/-- KCLOCK gives the station time once the words that micro-threads are executing have completed and no load is in flight, and
waits while a load is in flight; that every other access is performed as it issues is the model's choice (log entry 18). KIDENT gives the item its selector
names and raises cause 2 above 7 (R66, R67). `wfi` retires once an interrupt that is enabled, or a stop request, is
pending, and waits otherwise; `sfence.vma` waits for earlier accesses as KCLOCK does, and removes the translations it names from
the core's TLB and micro-TLB, and what its cluster's walker keeps (the model's choice for a fence that names an address: log entry 13); in user mode both
raise cause 2 (R188, R353). -/
def Obligations.ClockWaitAndFence : Prop :=
  (∀ (s : State) (rd : BitVec 5),
      (s.NoneExecuting → s.loadsInFlight = 0 →
        ∃ t, exec (.kclock rd) s = .next t ∧ WritesX rd (BitVec.ofNat 64 s.tick) s t) ∧
      (s.NoneExecuting → s.loadsInFlight ≠ 0 → exec (.kclock rd) s = .next s.stall) ∧
      (let v := s.completeExecuting
       (v.loadsInFlight = 0 → ∃ t, exec (.kclock rd) s = .next t ∧ WritesX rd (BitVec.ofNat 64 v.tick) v t) ∧
        (v.loadsInFlight ≠ 0 → exec (.kclock rd) s = .next v.stall)) ∧
      (∀ p ∈ ([(0, s.core.id), (1, s.core.id / 96), (2, s.core.id / 12 % 8), (3, s.core.id % 12), (4, s.lanes),
          (5, kmrowsOf s.core.vec.laneMap), (6, 0x10001), (7, 7)] : List (BitVec 10 × Nat)),
        ∃ t, exec (.kident rd p.1) s = .next t ∧ WritesX rd (BitVec.ofNat 64 p.2) s t) ∧
      ∀ sel : BitVec 10, 7 < sel.toNat → exec (.kident rd sel) s = .next (s.takeTrap 2 (s.core.ir.setWidth 64))) ∧
  (∀ (s : State) (rs1 rs2 : BitVec 5),
      (s.core.priv = .user → ∀ i ∈ [Instr.wfi, .sfenceVma rs1 rs2],
        exec i s = .next (s.takeTrap 2 (s.core.ir.setWidth 64))) ∧
      (s.core.priv ≠ .user → (s.core.priv = .machine ∨ bit s.core.csr.mstatus 21 = false) →
        ((s.core.csr.mip &&& s.core.csr.mie ≠ 0 ∨ bit s.core.csr.mip 16 = true) →
          ∃ t, exec .wfi s = .next t ∧ Retired s t ∧ FrameX 0 s t) ∧
        (s.core.csr.mip &&& s.core.csr.mie = 0 → bit s.core.csr.mip 16 = false → exec .wfi s = .next s)) ∧
      (s.core.priv ≠ .user → (s.core.priv = .machine ∨ bit s.core.csr.mstatus 20 = false) →
        let v := s.completeExecuting
        (s.NoneExecuting → v = s) ∧
        (v.loadsInFlight ≠ 0 → exec (.sfenceVma rs1 rs2) s = .next v.stall) ∧
        (v.loadsInFlight = 0 →
          ∃ t, exec (.sfenceVma rs1 rs2) s = .next t ∧ Retired v t ∧ t.core.regs = v.core.regs ∧ SameMemory v t ∧
            (∀ e, let kept := ¬((rs1 = 0 ∨ e.page = (s.x rs1).toNat / 2 ^ leafBits e.level) ∧
                (rs2 = 0 ∨ e.asid = (s.x rs2).setWidth 16 ∧ bit e.pte 5 = false))
              (e ∈ t.core.tlb ↔ e ∈ v.core.tlb ∧ kept) ∧ (e ∈ t.core.vtlb ↔ e ∈ v.core.vtlb ∧ kept)) ∧
            ∀ w, w ∈ t.mem.walkers ↔ w ∈ v.mem.walkers ∧ w.1 ≠ s.core.id / 12)))

/-! ### Work, regions and the signal boxes -/

/-- Appending a record to a region's queue puts it behind the others, sets its LINK to 0, writes its address into the LINK of the
old tail or into QHEAD where the queue is empty, makes it QTAIL and counts it in QUEUED (R69, R72, R73); both records lie where the
region's entry of the address table puts them, under MODE 14 (R330), and A and D are set in the leaf that maps a record so
written (R186). The pop of the head brings the one behind it to the head, whatever LINK holds, and an empty queue has no tail (R73,
R74); a record that is not at the head stays. Neither changes the queue of another region (R74). RUNNING is counted modulo
2^32 (R69). No page stands discarded (R189). `append`, `pop` and `addRunning` are what every queueing step of the model uses. That
the device keeps a queue of its own, which LINK, QHEAD, QTAIL and QUEUED show, is how the model has it (log entry 93). -/
def Obligations.QueueAppend : Prop :=
  ∀ (s : State) (g : Nat) (a : Word) (d : Int), s.Inv →
    let p := s.recordPa g a
    let s1 := (s.reach g a true).deviceWrite (p + 24) 8 0
    let base := s.kregbase.toNat
    let apart (x n : Nat) : Prop := x + n ≤ 2 ^ 48 ∧ (x + n ≤ base ∨ base + 0x108000 ≤ x)
    let leafOf (v : State) (b : Word) (e : TlbEntry) : Prop := ∃ w, v.walk (v.recordSpace g) b = .ok (e, w)
    let leafApart (v : State) (b : Word) (held : List Nat) : Prop := ∀ e, leafOf v b e →
      apart e.pteAddr 8 ∧ ∀ q ∈ held, e.pteAddr + 8 ≤ q ∨ q + 64 ≤ e.pteAddr
    let marked (t : State) (e : TlbEntry) : Prop :=
      (t.readPA e.pteAddr 8).testBit 6 = true ∧ (t.readPA e.pteAddr 8).testBit 7 = true
    g < 4096 → base + 0x108000 ≤ 2 ^ 48 → s.mem.discards = [] →
      (s.addRunning g d).running g = ((s.running g + d) % 2 ^ 32).toNat ∧
      (s.append g a).queue g = s.queue g ++ [a] ∧
      (∀ h, h ≠ g → (s.append g a).queue h = s.queue h ∧ (s.pop g a).queue h = s.queue h) ∧
      (apart p 64 → leafApart s a [p] → let t := s.append g a
        (s.queue g = [] →
          t.recLink p = 0 ∧ t.qhead g = a.toNat ∧ t.qtail g = a.toNat ∧ t.queued g = 1 ∧ ∀ e, leafOf s a e → marked t e) ∧
        (∀ front last, s.queue g = front ++ [last] → let tail := s1.recordPa g last
          apart tail 64 → leafApart s a [tail] → leafApart s1 last [p, tail] → (p + 64 ≤ tail ∨ tail + 64 ≤ p) →
          t.recLink p = 0 ∧ t.recLink tail = a.toNat ∧ t.qhead g = s.qhead g ∧ t.qtail g = a.toNat ∧
            t.queued g = (front.length + 2) % 2 ^ 32 ∧ (∀ e, leafOf s a e → marked t e) ∧ ∀ e, leafOf s1 last e → marked t e)) ∧
      (∀ rest, s.queue g = a :: rest → let t := s.pop g a
        t.queue g = rest ∧ t.qhead g = (rest.headD 0).toNat ∧ t.qtail g = (if rest = [] then 0 else s.qtail g) ∧
          t.queued g = rest.length % 2 ^ 32) ∧
      ((s.queue g).head? ≠ some a → s.pop g a = s)

/-- At the first instruction of a dispatched continuation the control thread holds its frame pointer, strip and
arguments in a0 to a7, each byte of the frame read where its own address lies, and zero in every other integer and floating-point
register (R25); it runs in user mode at CODE, as the selection read it (R74). The vector, matrix and copy CSRs are then at their
Reset columns, with kvlmax and ROWS from the lanes in service, kvl, kvstart, kvfflags and kvfe 0, and kstripbase and kstripcnt as a1
and a2; every vector register is zero with DIRTY all ones, the mode is vector, the tile state off, no slot claimed, every copy
Free, FS Initial, MASK and ACTIVE clear, and the data cache and every reservation gone; a Shadow siding empties (R75, R105, R160,
R211, R231, R286, R292, R309, R315, R338, R340, R352). Resuming a continuation that the core's siding holds,
the same record of the same region (R340), instead enters supervisor mode at
kresvec with the record in a0, zero in every other integer register, interrupts disabled and one entry in DEPTH, and
leaves the siding as it is (R343). Either takes the lanes that wait for retirement out of the lane map (R19, R377). Memory
is unchanged where the leaves that map the frame have A set (R186). -/
def Obligations.DispatchRegisters : Prop :=
  ∀ (s : State) (k : Continuation), s.core.id < 2304 → s.core.cont = some k → k.phase = .binding →
    s.core.awake = true → s.core.run ≠ .halted → s.core.stopsCopy = false → s.corePinned s.core.id = false →
    s.core.power.paid = true →
    let at_ (j : Nat) : Word := k.frame + BitVec.ofNat 64 (8 * j)
    let byte (a : Word) : Byte := BitVec.ofNat 8 (s.readPA (s.recordPa k.region a) 1)
    let arg (j : Nat) : Word := BitVec.ofNat 64 (leValue ((List.range 8).map fun i => byte (at_ j + BitVec.ofNat 64 i)))
    let map := s.core.vec.laneMap &&& ~~~s.core.pendingRetire
    let read := ∀ a ∈ [k.frame, k.frame + 39], ∀ e w, s.walk (s.recordSpace k.region) a = .ok (e, w) → bit e.pte 6 = true
    let d := s.core.siding
    let resumes := d.state = .held ∧ d.record = k.record ∧ ∃ h, d.holder = some h ∧ h.region = k.region
    (¬resumes → s.bindable k = true →
      ∃ t, exec (.dispatch s.core.id) s = .next t ∧ t.core.pc = k.code ∧ t.core.priv = .user ∧
        t.core.run = .running ∧ t.x 10 = k.frame ∧
        t.x 11 = (if k.striped then 0 else k.next) ∧ t.x 12 = (if k.striped then 0 else k.total) ∧
        t.x 13 = arg 0 ∧ t.x 14 = arg 1 ∧ t.x 15 = arg 2 ∧ t.x 16 = arg 3 ∧ t.x 17 = arg 4 ∧
        (∀ r : BitVec 5, r.toNat < 10 ∨ 17 < r.toNat → t.x r = 0) ∧ (∀ r, t.f r = 0) ∧ t.core.vec.laneMap = map ∧
        (∀ p ∈ ([(0x800, 0), (0x801, 0), (0x802, 0), (0x803, 0x400000000), (0x804, t.x 11), (0x805, t.x 12), (0x806, 0),
            (0x807, 0x14000 + BitVec.ofNat 64 (kmrowsOf map)), (0x808, 1), (0x809, 0x10000000), (0xCC0, 0), (0xCC1, 0x3000),
            (0xCC2, BitVec.ofNat 64 (64 * lanesInService map)), (0xCC3, 0xFFFFFFFF), (0xCCC, 0)] : List (Nat × Word)),
          t.readCsr p.1 = some p.2) ∧
        (∀ l i, (t.core.vec.slice l).get i = 0) ∧ t.core.mat.mode = .vector ∧ t.core.mat.ts = .off ∧
        (∀ q ∈ t.core.mat.slots.toList, q = .free) ∧ (∀ n < 64, (t.core.copy n).state = .free) ∧ t.core.qc = [] ∧
        field t.core.csr.mstatus 13 2 = 1 ∧ t.core.redirect.mask = 0 ∧ t.core.redirect.active = false ∧ t.core.dcache = [] ∧
        t.core.reservation = none ∧ t.core.vec.reservations = [] ∧
        (d.state = .shadow → t.core.siding.state = .empty) ∧ (d.state ≠ .shadow → t.core.siding = d) ∧
        (read → SameMemory s t)) ∧
    (resumes → ∃ t, exec (.dispatch s.core.id) s = .next t ∧ t.core.pc = s.core.csr.kresvec ∧ t.core.priv = .supervisor ∧
        t.core.run = .running ∧ t.x 10 = k.record ∧ (∀ r, r ≠ 10 → t.x r = 0) ∧ t.core.csr.trapDepth = 1 ∧
        bit t.core.csr.mstatus 1 = false ∧ t.core.siding = s.core.siding ∧ t.core.vec.laneMap = map ∧ SameMemory s t)

/-- `cspawn` of a record that is refused gives its status, and nothing else of the module differs but caches, translations in use
and reservations of other cores (R62); one that is accepted is a release, gives 0 and appends the record to its region's queue, or, where the record is striped
and empty, takes its successor step, an underflow of which raises cause 51 with its SUCC. A record that is not a multiple of 64
raises cause 4, and one outside device memory its access fault (R77, R87, R88). `cjoin` of a record whose JOIN is above 1 lowers
it, and the last one enqueues the record where its region accepts it, or takes an empty striped record's successor step; each
gives the new count. A JOIN of 0, or the last one in a region that accepts nothing, raises cause 51; a record that is not a
multiple of 64 raises cause 6, and one outside device memory cause 7. A release whose phase may not move yet waits (R87, R89,
R277). -/
def Obligations.SpawnAndJoin : Prop :=
  (∀ (s s1 s2 : State) (rd rs1 : BitVec 5) (x0 x : Xlated),
      let a := s.x rs1
      (a.toNat % 64 ≠ 0 → exec (.cspawn rd rs1) s = .next (s.takeTrap 4 a)) ∧
      (a.toNat % 64 = 0 → translate s.dataSpace .load .none a s = .ok x0 s1 → isHbm x0.pa = false →
        exec (.cspawn rd rs1) s = .next (s1.takeTrap 5 a)) ∧
      (a.toNat % 64 = 0 → translate s.dataSpace .load .none a s = .ok x0 s1 → isHbm x0.pa = true →
        translate s1.dataSpace .store .none a s1 = .ok x s2 → isHbm x.pa = true →
        let st := (s2.seen x).recordStatus x.pa s2.mayName
        (st ≠ 0 → ∃ t, exec (.cspawn rd rs1) s = .next t ∧ t.x rd = (if rd = 0 then 0 else BitVec.ofNat 64 st) ∧
          (∀ r, r ≠ rd → t.x r = s.x r) ∧ Retired s t ∧ FrameRead s t ∧ SameMemory s2 t) ∧
        (st = 0 → ¬ReleaseFree 1 s2 → exec (.cspawn rd rs1) s = .next s2) ∧
        (st = 0 → ReleaseFree 1 s2 →
          let s3 := (s2.afterRelease 1).dirtyPage (some s.core.id) x
          let step := s3.finishRecord (s3.recRegion x.pa) x.pa
          (s3.recEmpty x.pa = false →
            ∃ t, exec (.cspawn rd rs1) s = .next t ∧ t = ((s3.append (s3.recRegion x.pa) a).setX rd 0).retire ∧
              t.x rd = 0 ∧ t.core.pc = s.core.pc + 4) ∧
          (s3.recEmpty x.pa = true →
            exec (.cspawn rd rs1) s = .next (if step.2 then (step.1.setX rd 0).retire
              else step.1.takeTrap 51 (BitVec.ofNat 64 (step.1.recSucc x.pa))))))) ∧
  (∀ (s s1 : State) (rd rs1 : BitVec 5) (x : Xlated),
      let a := s.x rs1
      (a.toNat % 64 ≠ 0 → exec (.cjoin rd rs1) s = .next (s.takeTrap 6 a)) ∧
      (a.toNat % 64 = 0 → translate s.dataSpace .store .none a s = .ok x s1 →
        (isHbm x.pa = false → exec (.cjoin rd rs1) s = .next (s1.takeTrap 7 a)) ∧
        (isHbm x.pa = true → ¬ReleaseFree 1 s1 → exec (.cjoin rd rs1) s = .next s1) ∧
        (isHbm x.pa = true → ReleaseFree 1 s1 →
          let s2 := s1.afterRelease 1
          let old := (s2.seen x).recJoin x.pa
          (1 < old → ∃ t, exec (.cjoin rd rs1) s = .next t ∧
            t = (((s2.dirtyPage (some s.core.id) x).deviceWrite (x.pa + 48) 4 (old - 1)).setX rd (BitVec.ofNat 64 (old - 1))).retire ∧
            t.x rd = (if rd = 0 then 0 else BitVec.ofNat 64 (old - 1)) ∧ Retired s t) ∧
          (old = 1 → s2.accepts (s2.recRegion x.pa) = true →
            let s3 := (s2.dirtyPage (some s.core.id) x).deviceWrite (x.pa + 48) 4 0
            let step := s3.finishRecord (s3.recRegion x.pa) x.pa
            (s3.recEmpty x.pa = false → exec (.cjoin rd rs1) s = .next ((s3.append (s3.recRegion x.pa) a).setX rd 0).retire) ∧
            (s3.recEmpty x.pa = true → exec (.cjoin rd rs1) s = .next (if step.2 then (step.1.setX rd 0).retire
              else step.1.takeTrap 51 (BitVec.ofNat 64 (step.1.recSucc x.pa))))) ∧
          (old = 0 ∨ old = 1 ∧ s2.accepts (s2.recRegion x.pa) = false → exec (.cjoin rd rs1) s = .next (s2.takeTrap 51 a)))))

/-- `stclaim` on a striped record claims the next strip, of at most kvl elements, and moves NEXT past it; with kvl = 0
it raises cause 2. On a plain record it gives 0. With no continuation bound its count is a free value (the model's
choice: log entry 24), the same in x[rd] and in kstripcnt (R77, R90); a NEXT above TOTAL gives 0 and pops nothing (log entry
102). `cfinish` outside vector mode raises cause 25. It waits
for the loads in flight, has the Suspended copies of the core re-enter qc in ascending number (the order is the model's choice: log
entry 89), waits for the copies, and delivers the lowest fault of a copy not yet observed with cause 49.
Then it is a release that bumps the phase, frees the copies, turns the matrix state off and makes the core idle with no
continuation, its registers as they were (R91; with no continuation bound: log entry 24); the releases of its die that are not yet
paid stay in their order, and a quiet one of the core among them as one that no later continuation withdraws (R361). Of the bound
record, HOLDERS becomes one less than its holders where it is striped, and a plain record, or one that a claim has popped, at its last
holder and in a region that is not quiesced, takes its successor step: with SUCC = 0 nothing; a JOIN above 1 is lowered; a JOIN of 1 becomes 0, and the
successor is appended to its region's queue; a JOIN of 0, or one of 1 in a region that accepts nothing, quiesces the fault
domain with cause 51 (that its report holds the record that finishes is the model's choice: log entry 84). RUNNING of the region is
lowered (R77, R78, R85, R86, R91). `cyield` gives 1 where other work of at least its priority could use the core, and then asks the
core to stop, unless the continuation is Stopping already (R8, R86); else it gives 0 (R92).
That a `cyield` asks its continuation to stop also where its domain quiesces is the model's choice (log entry 92). -/
def Obligations.ClaimFinishAndYield : Prop :=
  (∀ (s : State) (rd : BitVec 5),
      (∀ k, s.core.cont = some k → k.striped = true → s.vl ≠ 0 →
        let p := s.recordPa k.region k.record
        let base := s.recNext p
        let c := min s.vl (s.recTotal p - base)
        let s1 := (s.reach k.region k.record true).deviceWrite (p + 40) 8 (base + c)
        ∃ t, exec (.stclaim rd) s = .next t ∧ t.x rd = (if rd = 0 then 0 else BitVec.ofNat 64 c) ∧
          t.core.vec.kstripbase = BitVec.ofNat 64 base ∧ t.core.vec.kstripcnt = BitVec.ofNat 64 c ∧ Retired s t ∧
          (let u := if 0 < c ∧ base + c = s.recTotal p then s1.pop k.region k.record else s1;
            t.mem = u.mem ∧ t.queues = u.queues) ∧ (∀ r, r ≠ rd → t.x r = s.x r)) ∧
      (∀ k, s.core.cont = some k → k.striped = true → s.vl = 0 →
        exec (.stclaim rd) s = .next (s.takeTrap 2 (s.core.ir.setWidth 64))) ∧
      (∀ k, s.core.cont = some k → k.striped = false → ∃ t, exec (.stclaim rd) s = .next t ∧ t.x rd = 0 ∧
        t.core.vec = { s.core.vec with kstripcnt := 0 } ∧ Retired s t ∧ SameMemory s t ∧ ∀ r, r ≠ rd → t.x r = s.x r) ∧
      (s.core.cont = none → ∃ t v, exec (.stclaim rd) s = .next t ∧ t.x rd = (if rd = 0 then 0 else v) ∧
        t.core.vec = { s.core.vec with kstripcnt := v } ∧ Retired s t ∧ SameMemory s t ∧ ∀ r, r ≠ rd → t.x r = s.x r)) ∧
  (∀ (s : State) (rd : BitVec 5),
      (s.core.mat.mode ≠ .vector → exec .cfinish s = .next (s.takeTrap 25 0)) ∧
      (s.core.mat.mode = .vector →
        let begun := s.mapCore fun c => { c with begun := .finishing }
        let busy (n : Nat) : Prop := (s.core.copy n).state ∈ [.queued, .running, .stopping]
        let unseen (n : Nat) : Prop := (s.core.copy n).state = .faulted ∧ (s.core.copy n).obs = false
        (s.loadsInFlight ≠ 0 → exec .cfinish s = .next begun.stall) ∧
        (s.loadsInFlight = 0 → (∃ n < 64, (s.core.copy n).state = .suspended) → ∃ t, exec .cfinish s = .next t ∧
          (∀ n < 64, t.core.copy n = if (s.core.copy n).state = .suspended then (s.core.copy n).requeue else s.core.copy n) ∧
          t.core.qc = s.core.qc ++ (List.range 64).filter (fun n => (s.core.copy n).state = .suspended) ∧
          t.core.pc = s.core.pc ∧ t.core.regs = s.core.regs ∧ t.core.cont = s.core.cont ∧ SameMemory s t) ∧
        (s.loadsInFlight = 0 → (∀ n < 64, (s.core.copy n).state ≠ .suspended) →
          ((∃ n < 64, busy n) → exec .cfinish s = .next begun) ∧
          (∀ n < 64, (∀ k < 64, ¬busy k) → unseen n → (∀ k < n, ¬unseen k) →
            exec .cfinish s = .next ((begun.mapCopy n fun e => { e with obs := true }).takeTrap 49 (BitVec.ofNat 64 n))) ∧
          ((∀ n < 64, ¬busy n ∧ ¬unseen n) → ReleaseFree 1 s →
            ∃ t, exec .cfinish s = .next t ∧ t.core.run = .idle ∧ t.core.cont = none ∧ t.core.mat.ts = .off ∧
              t.core.mat.mode = .vector ∧ t.core.regs = s.core.regs ∧ t.core.fregs = s.core.fregs ∧
              t.core.phase = s.core.phase + 1 ∧ (∀ n < 64, (t.core.copy n).state = .free) ∧
              (∀ r ∈ (t.die (s.core.id / 96)).releases, r.core = s.core.id → r.kind ≠ .quiet) ∧
              ((s.die (s.core.id / 96)).releases.map fun r =>
                if r.core = s.core.id ∧ r.kind = .quiet then { r with kind := .load } else r) <+: (t.die (s.core.id / 96)).releases ∧
              (s.core.cont = none → SameMemory s t) ∧
              ∀ k, s.core.cont = some k →
                let p := s.recordPa k.region k.record
                let s1 := s.reach k.region k.record k.striped
                let h := s.holders k.region k.record - 1
                let s2 := if k.striped then s1.deviceWrite (p + 56) 4 h else s1
                let succeeds := k.striped = true → h = 0 ∧ k.record ∉ s.queue k.region ∧ s2.quiescing k.region = false
                let a := BitVec.ofNat 64 (s2.recSucc p)
                let q := s2.recordPa k.region a
                let g := s2.recRegion q
                let under := s2.recJoin q = 0 ∨ s2.recJoin q = 1 ∧ s2.accepts g = false
                let s3 := (s2.reach k.region a true).deviceWrite (q + 48) 4 (s2.recJoin q - 1)
                let bytes (u : State) : Prop := t.mem.bytes = (u.addRunning k.region (-1)).mem.bytes
                (¬succeeds ∨ a = 0 → bytes s2) ∧
                (succeeds → a ≠ 0 → ¬under →
                  (s2.recJoin q ≠ 1 → bytes s3) ∧ (s2.recJoin q = 1 → s3.recEmpty q = false → bytes (s3.append g a) ∧
                    t.queue g = s.queue g ++ [a])) ∧
                (succeeds → a ≠ 0 → under → let s4 := (s2.reach k.region a false).addRunning k.region (-1)
                  s4.quiescing k.region = false → ∃ d ∈ t.domains, d.reported = false ∧
                    d.info = ⟨k.region, 51, 0, s.core.id, k.record, s.core.pc, 0⟩)))) ∧
      (∃ t, exec (.cyield rd) s = .next t ∧ Retired s t ∧
        t.x rd = (if rd = 0 then 0 else if s.core.cont.any s.workWaits then 1 else 0) ∧
        (∀ r, r ≠ rd → t.x r = s.x r) ∧ SameMemory s t ∧
        (∀ k, s.core.cont = some k → s.workWaits k = true → k.phase = .running →
          bit t.core.csr.mip 16 = true ∧ t.core.stopCause = 2 ∧ t.core.cont = some { k with phase := .stopping }) ∧
        ((s.core.cont.any fun k => s.workWaits k && k.phase == .running) = false →
          t.core.csr = s.core.csr ∧ t.core.cont = s.core.cont ∧ t.core.stopCause = s.core.stopCause)))

/-- `rgnmake` gives the number of the region it makes, or the negative status of its first failing check, with memory
then unchanged; a template that is not a multiple of 256 raises cause 4, and one on a page that the host denies cause 5 (R384); `rgnsync` of a region it may not name gives −5, waits for a busy subtree, and with flag 1 retires an
idle one (R93, R94), once the fault domains in it are reported (R85; log entry 85). `cinfo` gives the item it names and raises cause 2 above 13; with no continuation bound the item
is a free value (R95; log entry 24).
Items 3 and 4 are those of the record as it stands (the model's choice: log entry 93). -/
def Obligations.Regions : Prop :=
  ∀ (s s1 : State) (rd rs1 rs2 : BitVec 5) (sel : BitVec 10) (x : Xlated),
    let t0 := s.x rs1
    let g := (s.x rs1).toNat
    let f := (s.x rs2).toNat
    let named := g ≤ 4095 ∧ g ≠ 0 ∧ s.isLive g = true ∧ s.region.any (s.within g) = false ∧ s.mayName g = true ∧ f ≤ 1
    let reported := ∀ d ∈ s.domains, s.within g d.root = true → d.reported = true
    (t0.toNat % 256 ≠ 0 → exec (.rgnmake rd rs1 rs2) s = .next (s.takeTrap 4 t0)) ∧
    (t0.toNat % 256 = 0 → translate s.dataSpace .load .none t0 s = .ok x s1 →
      let tpl : Template := fun off n => if x.discarded then 0 else s1.readPA (x.pa + off) n
      let st := s1.regionStatus (s.x rs2) tpl
      let denied := x.discarded = false ∧ isHost x.pa = true ∧ s1.dev.refuses (s1.hostPage x.pa) = true
      (denied → exec (.rgnmake rd rs1 rs2) s = .next (s1.takeTrap 5 t0)) ∧
      (¬denied → st < 0 → ∃ t, exec (.rgnmake rd rs1 rs2) s = .next t ∧ t.x rd = (if rd = 0 then 0 else BitVec.ofInt 64 st) ∧
        Retired s t ∧ FrameRead s t ∧ SameMemory s1 t) ∧
      (¬denied → 0 ≤ st → ReleaseFree 1 s1 → ∃ t, exec (.rgnmake rd rs1 rs2) s = .next t ∧ Retired s t ∧
        t.x rd = (if rd = 0 then 0 else BitVec.ofInt 64 st) ∧ t.isLive st.toNat = true ∧
        t.mem = ((s1.afterRelease 1).makeRegion st.toNat (s.x rs2).toNat tpl).mem)) ∧
    (¬named → ∃ t, exec (.rgnsync rd rs1 rs2) s = .next t ∧ WritesX rd (-5) s t) ∧
    (named → s.subtreeIdle g = false ∨ f = 1 ∧ ¬reported → exec (.rgnsync rd rs1 rs2) s = .next s) ∧
    (named → s.subtreeIdle g = true → (f = 1 → reported) → ∃ t, exec (.rgnsync rd rs1 rs2) s = .next t ∧ t.x rd = 0 ∧ Retired s t ∧
      t.core.dcache = [] ∧ (f = 0 → t.live = s.live) ∧
      (f = 1 → ∀ k, t.isLive k = true ↔ s.isLive k = true ∧ s.within g k = false) ∧ SameMemory s t) ∧
    (∀ k, s.core.cont = some k →
      let p := s.recordPa k.region k.record
      ∀ q ∈ ([(0, k.region), (1, s.prio k.region), (2, k.record.toNat),
          (3, s.recFlags p + 256 * s.recWidth p), (4, s.recTotal p), (5, k.firstDispatch), (6, s.running k.region),
          (7, s.queued k.region), (8, s.maxCores k.region), (9, s.minCores k.region),
          (10, s.rcbField k.region 4 1), (11, s.parent k.region), (12, if k.striped then s.holders k.region k.record else 0),
          (13, k.saves)] : List (BitVec 10 × Nat)),
        ∃ t, exec (.cinfo rd q.1) s = .next t ∧ WritesX rd (BitVec.ofNat 64 q.2) s t) ∧
    (s.core.cont = none → sel.toNat ≤ 13 → ∃ t v, exec (.cinfo rd sel) s = .next t ∧ t.x rd = (if rd = 0 then 0 else v) ∧
      Retired s t ∧ (∀ r, r ≠ rd → t.x r = s.x r) ∧ SameMemory s t) ∧
    (13 < sel.toNat → exec (.cinfo rd sel) s = .next (s.takeTrap 2 (s.core.ir.setWidth 64)))

/-- The signal boxes' events. A selection for a core that is not idle, or for which no region is eligible, changes
nothing; for an idle core without a saved continuation it binds the head of the chosen region's queue, with what its
record holds then, and a plain record leaves the queue (R74, R80, R86); one whose siding holds a saved continuation of the chosen region binds that. Stopping a
quiescing core at an interruptible point of user mode, or one still in Binding whose charge is not paid, unbinds it; a core in another
mode is asked to stop, once; a halted one, one at another point, and one whose paid binding is to start first, is left alone. A pre-emption of a victim for a record address asks it
to stop where some region with a record of that address in its queue asks for it: no request of that region and record is outstanding,
no core eligible for the region is idle, and the victim is the region's; else it changes nothing. A report changes nothing for a number that names no domain, for a domain that has not stopped, for one
already reported, and while the log of its die holds an event of a higher unit of this tick. Else the domain is reported: with
no fault continuation as an entry of SOURCE 10 in the error log; with one, the five doublewords of R346 are written at its
frame, and its record is enqueued as `cspawn` would, or, where it fails the checks, those of its page among them, dropped and
counted (R80, R83, R86 to R88, R345 to R347, R379). The model's choices: that the writes go where they stand without a translation
(log entry 22), the entry of SOURCE 10, its total, and the count of a dropped report (log entry 23), that a core whose binding is
paid for starts before it stops (log entry 51), and the wait for an event of a higher unit (log entry 76).
A pre-emption is so also of a continuation whose domain quiesces (log entry 92), and a continuation is of the region of the queue
its record waited in (log entry 93). -/
def Obligations.SignalBoxEvents : Prop :=
  ∀ (s : State) (core record victim n : Nat), core < 2304 →
    ((s.isIdle core = false ∨ s.topRegions core = []) → exec (.selection core) s = .next s) ∧
    (∀ g s', s.isIdle core = true → s.chooseRegion core = some (g, s') → (s'.coreOf core).holdsSaved g = false →
      let a := (s.queue g).headD 0
      let p := s.recordPa g a
      ∃ t k, exec (.selection core) s = .next t ∧ (t.coreOf core).cont = some k ∧ k.phase = .binding ∧ k.region = g ∧
        k.record = a ∧ k.named = s.recRegion p ∧ k.flags = s.recFlags p ∧ k.code = BitVec.ofNat 64 (s.recCode p) ∧
        k.frame = BitVec.ofNat 64 (s.recFrame p) ∧ k.next = BitVec.ofNat 64 (s.recNext p) ∧
        k.total = BitVec.ofNat 64 (s.recTotal p) ∧ t.queue g = (if s.recStriped p then s.queue g else (s.queue g).tail)) ∧
    (∀ g s' k, s.isIdle core = true → s.chooseRegion core = some (g, s') → (s'.coreOf core).holdsSaved g = true →
      (s'.coreOf core).siding.holder = some k →
      ∃ t k', exec (.selection core) s = .next t ∧ (t.coreOf core).cont = some k' ∧
        k' = { k with phase := .binding, charge := k'.charge }) ∧
    (let c := s.coreOf core
      let binding := ∃ k, c.cont = some k ∧ k.phase = .binding
      let stops := binding ∨ c.priv = .user ∧ s.interruptibleAt core = true
      let asks := c.priv ≠ .user ∧ c.stopCause ≠ 3
      let starts := binding ∧ c.power.paid = true
      (s.mustStop core = false ∨ c.run = .halted ∨ starts → exec (.quiesceStop core) s = .next s) ∧
      (s.mustStop core = true → c.run ≠ .halted → ¬starts →
        (stops → ∃ t, exec (.quiesceStop core) s = .next t ∧ (t.coreOf core).cont = none ∧ (t.coreOf core).run = .idle) ∧
        (¬stops → asks → ∃ t, exec (.quiesceStop core) s = .next t ∧ (t.coreOf core).stopCause = 3 ∧
          bit (t.coreOf core).csr.mip 16 = true ∧ (t.coreOf core).cont = c.cont ∧ (t.coreOf core).pc = c.pc ∧ t.mem = s.mem) ∧
        (¬stops → ¬asks → exec (.quiesceStop core) s = .next s))) ∧
    (let a := BitVec.ofNat 64 record
      let asks (g : Nat) : Prop := (∀ p ∈ s.preemptions, p.region = g → p.record ≠ a) ∧ s.idleCoreFor g = false ∧
        s.victimFor g = some victim
      ((∀ g ∈ s.regionsOfQueued a, ¬asks g) → exec (.preemptionRequest record victim) s = .next s) ∧
      (∀ g ∈ s.regionsOfQueued a, asks g → ∃ t, exec (.preemptionRequest record victim) s = .next t ∧
        (t.coreOf victim).stopCause = 1 ∧ bit (t.coreOf victim).csr.mip 16 = true ∧
        ∃ p ∈ t.preemptions, p.record = a ∧ p.victim = victim)) ∧
    (s.domains.length ≤ n → exec (.faultReport n) s = .next s) ∧
    (∀ d, s.domains[n]? = some d →
      let u := { s with domains := s.domains.set n { d with reported := true } }
      let die := s.reportDie d
      let waits := s.loggedAbove die (s.reportUnit n) = true
      let base := s.kregbase.toNat
      let apart (x m : Nat) : Prop := x + m ≤ 2 ^ 48 ∧ (x + m ≤ base ∨ base + 0x108000 ≤ x)
      (d.reported = true ∨ s.domainStopped d = false ∨ waits → exec (.faultReport n) s = .next s) ∧
      (d.reported = false → s.domainStopped d = true → ¬waits →
        (s.faultCont maxLevel d.root = none → exec (.faultReport n) s =
          .next ((u.mapDie die fun k => { k with uncorrected := k.uncorrected + 1 }).logEvent die
            ⟨10, 1, d.info.region, 0xFFFF, d.info.word, 0⟩)) ∧
        (∀ owner a, s.faultCont maxLevel d.root = some (owner, a) →
          let w := BitVec.ofNat 64 a
          let f := s.recFrame a
          let sp := s.recordSpace owner
          let settled (x : Word) : Prop := (∀ q ∈ s.walked sp x, Apart q.2.addr 8 f 40) ∧
            ∀ e trail, s.walk sp x = .ok (e, trail) → e.addr x = x.toNat ∧ bit e.pte 6 = true ∧ bit e.pte 7 = true
          exec (.faultReport n) s = .next (u.reportTo d.info owner w) ∧
          (settled w → (∀ k < 40, settled (BitVec.ofNat 64 (f + k))) → s.Inv → s.mem.discards = [] → owner < 4096 →
            base + 0x108000 ≤ 2 ^ 48 → apart f 40 → apart a 64 → (f + 40 ≤ a ∨ a + 64 ≤ f) →
            ∃ v : State, MemoryOutside f 40 s v ∧ v.domains = u.domains ∧
              v.readPA f 8 = d.info.region % 2 ^ 64 ∧
              v.readPA (f + 8) 8 = d.info.cause % 256 + 256 * (d.info.source % 256) + 65536 * (d.info.core % 65536) ∧
              v.readPA (f + 16) 8 = d.info.value.toNat ∧ v.readPA (f + 24) 8 = d.info.pc.toNat ∧
              v.readPA (f + 32) 8 = d.info.code.toNat ∧
              let passes := v.pagePasses owner w = true ∧ (v.recordStatus a fun _ => true) = 0
              (w.toNat % 64 ≠ 0 ∨ (∀ r, s.walk sp w ≠ .ok r) → ¬passes) ∧
              (passes → v.recEmpty a = false → exec (.faultReport n) s = .next (v.append (v.recRegion a) w)) ∧
              (¬passes → exec (.faultReport n) s = .next (v.countEvent 0 7 0 a))))))

/-! ### Vector configuration, integer, mask and permutation instructions -/

/-- A pass over the elements from kvstart to kvl − 1 writes exactly those elements of its destination that its
function gives a value, leaves the others of the body and the prestart elements, zeroes the tail under TAIL and else
leaves it, and touches no other register; with kvstart at or above kvl it writes nothing (R21, R97, R106, R107). The
same of a pass over mask bits: the bits of the body that get a value change, the others and every other register stay
(R98, R106). The pass of a non-interruptible instruction over its first n elements does so with kvstart taken as 0, unless kvl = 0
(R107); that neither the prestart row of R106 nor kvstart at or above kvl binds it is the model's choice (log entry 99). Either gives
kvfflags the flags of the elements that got a value, beside those that stood, and sets the bit in DIRTY of each register that an
element was written in (R139, R140, R338). A vector instruction that runs its pass changes nothing but vector registers, kvstart, kvfflags, kvdirty,
pc, instret and the mark of a quiet core: no integer or floating-point register, no CSR beyond those, and no byte of
memory (R6). -/
def Obligations.PassEffects : Prop :=
  (∀ (s : State) (geo : Geometry) (w r span : Nat) (f : Nat → ElementResult),
      geo.Good → s.core.Canonical → w ∈ [8, 16, 32, 64] → span ∈ [1, 2] → r + span ≤ geo.n → s.vl ≤ geo.cap w span →
      let t := s.pass geo (.elems w r span) f
      (∀ i, i < geo.cap w span → t.core.vec.elem geo w r i =
        if s.vl ≤ s.vstart ∨ i < s.vstart then s.core.vec.elem geo w r i
        else if i < s.vl then
          match f i with
          | some (x, _) => x % 2 ^ w
          | none => s.core.vec.elem geo w r i
        else if s.core.vec.cfg.tail then 0 else s.core.vec.elem geo w r i) ∧
      (∀ q w' i, q < geo.n → q < r ∨ r + span ≤ q → w' ∈ [8, 16, 32, 64] → i < geo.cap w' 1 →
        t.core.vec.elem geo w' q i = s.core.vec.elem geo w' q i) ∧
      t.vstart = 0 ∧ t.core.Canonical) ∧
  (∀ (s : State) (geo : Geometry) (r : Nat) (f : Nat → ElementResult),
      geo.Good → s.core.Canonical → r < geo.n → s.vl ≤ geo.maskCap →
      let t := s.pass geo (.mask r) f
      (∀ i, i < geo.maskCap → t.core.vec.maskBit geo r i =
        if s.vl ≤ s.vstart ∨ i < s.vstart then s.core.vec.maskBit geo r i
        else if i < s.vl then
          match f i with
          | some (x, _) => decide (x ≠ 0)
          | none => s.core.vec.maskBit geo r i
        else if s.core.vec.cfg.tail then false else s.core.vec.maskBit geo r i) ∧
      (∀ q w' i, q < geo.n → q ≠ r → w' ∈ [8, 16, 32, 64] → i < geo.cap w' 1 →
        t.core.vec.elem geo w' q i = s.core.vec.elem geo w' q i) ∧
      t.vstart = 0) ∧
  (∀ (s : State) (geo : Geometry) (d : Dest) (n : Nat) (f : Nat → ElementResult),
      (FrameVector s (s.enteredQv.pass geo d f).retire ∧ Retired s (s.enteredQv.pass geo d f).retire) ∧
        FrameVector s (s.enteredQv.passAll geo d n f).retire ∧ Retired s (s.enteredQv.passAll geo d n f).retire) ∧
  (∀ (s : State) (geo : Geometry) (d : Dest) (n : Nat) (f : Nat → ElementResult),
      geo.Good → s.core.Canonical → d.Fits geo →
      (s.vl ≤ d.cap geo → d.Marks geo f (s.vstart < s.vl) s.vstart s.vl s (s.pass geo d f)) ∧
      (n ≤ d.cap geo →
        let v := s.core.vec
        let t := s.passAll geo d n f
        (∀ i, i < d.cap geo → d.value geo t.core.vec i =
          if s.vl = 0 then d.value geo v i
          else if i < n then
            match f i with
            | some (x, _) => d.stored x
            | none => d.value geo v i
          else if v.cfg.tail then 0 else d.value geo v i) ∧
        (∀ q w' i, q < geo.n → (∀ j < d.cap geo, d.register geo j ≠ q) → w' ∈ [8, 16, 32, 64] → i < geo.cap w' 1 →
          t.core.vec.elem geo w' q i = v.elem geo w' q i) ∧
        t.vstart = 0 ∧ t.core.Canonical ∧ d.Marks geo f (s.vl ≠ 0) 0 n s t))

/-- The single-width integer family computes f of vs2's element and the second operand for every active element of the
body: the plain and the saturating operations, the shifts, the products with vmacc, which adds to vd's element, and the divisions;
the narrowing clips round half up, shift and limit the elements of a pair (R109, R116 to R120). vmacc reads vd as a source under
R99, and the clips are illegal at SEW 64; a masked instruction that names v0 as its destination raises cause 2. -/
def Obligations.VectorIntegerFamily : Prop :=
  ∀ (s : State) (vd vs2 vs1 rs1 imm : BitVec 5) (vm : BitVec 1),
    let v := s.core.vec
    let geo := v.geometry
    let w := s.sew
    let m := 2 ^ w
    let sg (x : Nat) : Int := if x < 2 ^ (w - 1) then x else (x : Int) - 2 ^ w
    let wr (z : Int) : Nat := (z % 2 ^ w).toNat
    let lim (z : Int) : Nat := wr (if z < -(2 ^ (w - 1)) then -(2 ^ (w - 1)) else if 2 ^ (w - 1) ≤ z then 2 ^ (w - 1) - 1 else z)
    let V : Operand := .vec vs1.toNat
    let X : Operand := .all ((s.x rs1).toNat % m)
    let I : Operand := .all (wr imm.toInt)
    let U : Operand := .all imm.toNat
    let illegal (i : Instr) : Prop := exec i s = .next (s.takeTrap 2 (s.core.ir.setWidth 64))
    (∀ p ∈ ([(.vaddVv vd vs2 vs1 vm, V, fun a b _ => (a + b) % m), (.vaddVx vd vs2 rs1 vm, X, fun a b _ => (a + b) % m),
        (.vaddVi vd vs2 imm vm, I, fun a b _ => (a + b) % m), (.vsubVv vd vs2 vs1 vm, V, fun a b _ => wr (a - b)),
        (.vrsubVx vd vs2 rs1 vm, X, fun a b _ => wr (b - a)), (.vrsubVi vd vs2 imm vm, I, fun a b _ => wr (b - a)),
        (.vminuVv vd vs2 vs1 vm, V, fun a b _ => min a b), (.vminuVx vd vs2 rs1 vm, X, fun a b _ => min a b),
        (.vminVv vd vs2 vs1 vm, V, fun a b _ => if sg b < sg a then b else a),
        (.vminVx vd vs2 rs1 vm, X, fun a b _ => if sg b < sg a then b else a),
        (.vmaxuVv vd vs2 vs1 vm, V, fun a b _ => max a b), (.vmaxuVx vd vs2 rs1 vm, X, fun a b _ => max a b),
        (.vmaxVv vd vs2 vs1 vm, V, fun a b _ => if sg a < sg b then b else a),
        (.vmaxVx vd vs2 rs1 vm, X, fun a b _ => if sg a < sg b then b else a),
        (.vandVv vd vs2 vs1 vm, V, fun a b _ => a &&& b), (.vandVx vd vs2 rs1 vm, X, fun a b _ => a &&& b),
        (.vandVi vd vs2 imm vm, I, fun a b _ => a &&& b), (.vorVv vd vs2 vs1 vm, V, fun a b _ => a ||| b),
        (.vorVx vd vs2 rs1 vm, X, fun a b _ => a ||| b), (.vorVi vd vs2 imm vm, I, fun a b _ => a ||| b),
        (.vxorVv vd vs2 vs1 vm, V, fun a b _ => a ^^^ b), (.vxorVx vd vs2 rs1 vm, X, fun a b _ => a ^^^ b),
        (.vxorVi vd vs2 imm vm, I, fun a b _ => a ^^^ b),
        (.vsllVv vd vs2 vs1 vm, V, fun a b _ => a * 2 ^ (b % w) % m),
        (.vsllVx vd vs2 rs1 vm, X, fun a b _ => a * 2 ^ (b % w) % m),
        (.vsllVi vd vs2 imm vm, U, fun a b _ => a * 2 ^ (b % w) % m),
        (.vsrlVv vd vs2 vs1 vm, V, fun a b _ => a / 2 ^ (b % w)), (.vsrlVx vd vs2 rs1 vm, X, fun a b _ => a / 2 ^ (b % w)),
        (.vsrlVi vd vs2 imm vm, U, fun a b _ => a / 2 ^ (b % w)),
        (.vsraVv vd vs2 vs1 vm, V, fun a b _ => wr (sg a / 2 ^ (b % w))),
        (.vsraVx vd vs2 rs1 vm, X, fun a b _ => wr (sg a / 2 ^ (b % w))),
        (.vsraVi vd vs2 imm vm, U, fun a b _ => wr (sg a / 2 ^ (b % w))),
        (.vmulVv vd vs2 vs1 vm, V, fun a b _ => a * b % m), (.vmulVx vd vs2 rs1 vm, X, fun a b _ => a * b % m),
        (.vmulhVv vd vs2 vs1 vm, V, fun a b _ => wr (sg a * sg b / 2 ^ w)),
        (.vmulhVx vd vs2 rs1 vm, X, fun a b _ => wr (sg a * sg b / 2 ^ w)),
        (.vmaccVv vd vs2 vs1 vm, V, fun a b d => (d + a * b) % m), (.vmaccVx vd vs2 rs1 vm, X, fun a b d => (d + a * b) % m),
        (.vdivuVv vd vs2 vs1 vm, V, fun a b _ => if b = 0 then m - 1 else a / b),
        (.vdivuVx vd vs2 rs1 vm, X, fun a b _ => if b = 0 then m - 1 else a / b),
        (.vdivVv vd vs2 vs1 vm, V, fun a b _ => if b = 0 then m - 1 else wr ((sg a).tdiv (sg b))),
        (.vdivVx vd vs2 rs1 vm, X, fun a b _ => if b = 0 then m - 1 else wr ((sg a).tdiv (sg b))),
        (.vremuVv vd vs2 vs1 vm, V, fun a b _ => if b = 0 then a else a % b),
        (.vremuVx vd vs2 rs1 vm, X, fun a b _ => if b = 0 then a else a % b),
        (.vremVv vd vs2 vs1 vm, V, fun a b _ => if b = 0 then a else wr ((sg a).tmod (sg b))),
        (.vremVx vd vs2 rs1 vm, X, fun a b _ => if b = 0 then a else wr ((sg a).tmod (sg b))),
        (.vsadduVv vd vs2 vs1 vm, V, fun a b _ => min (a + b) (m - 1)),
        (.vsadduVx vd vs2 rs1 vm, X, fun a b _ => min (a + b) (m - 1)),
        (.vsadduVi vd vs2 imm vm, I, fun a b _ => min (a + b) (m - 1)),
        (.vsaddVv vd vs2 vs1 vm, V, fun a b _ => lim (sg a + sg b)), (.vsaddVx vd vs2 rs1 vm, X, fun a b _ => lim (sg a + sg b)),
        (.vsaddVi vd vs2 imm vm, I, fun a b _ => lim (sg a + sg b)), (.vssubuVv vd vs2 vs1 vm, V, fun a b _ => a - b),
        (.vssubuVx vd vs2 rs1 vm, X, fun a b _ => a - b), (.vssubVv vd vs2 vs1 vm, V, fun a b _ => lim (sg a - sg b)),
        (.vssubVx vd vs2 rs1 vm, X, fun a b _ => lim (sg a - sg b))] : List (Instr × Operand × (Nat → Nat → Nat → Nat))),
      (maskOk vm vd.toNat = false → illegal p.1) ∧
      (maskOk vm vd.toNat = true → VectorReady s (vs2.toNat :: p.2.1.reads ++ maskReads vm) [vd.toNat] →
        exec p.1 s = .next (s.enteredQv.pass geo (.elems w vd.toNat 1) (s.whenActive vm fun i =>
          p.2.2 (v.elem geo w vs2.toNat i) (p.2.1.at v geo w i) (v.elem geo w vd.toNat i))).retire)) ∧
    (∀ p ∈ ([(.vmaccVv vd vs2 vs1 vm, V), (.vmaccVx vd vs2 rs1 vm, X)] : List (Instr × Operand)),
      let reads := vs2.toNat :: p.2.reads ++ maskReads vm
      maskOk vm vd.toNat = true → VectorReady (s.mapVec fun v => { v with full := -1 }) reads [vd.toNat] →
      reads.all s.isFull = true → s.isFull vd.toNat = false → v.kvfe.getLsbD vd.toNat = true →
        exec p.1 s = .next (s.enteredQv.takeTrap 26 (vd.setWidth 64))) ∧
    (∀ p ∈ ([(.vnclipuWv vd vs2 vs1 vm, fun a k => min (if k = 0 then a else (a + 2 ^ (k - 1)) / 2 ^ k) (m - 1)),
        (.vnclipWv vd vs2 vs1 vm, fun a k =>
          let z : Int := if a < 2 ^ (2 * w - 1) then a else (a : Int) - 2 ^ (2 * w)
          lim (if k = 0 then z else (z + 2 ^ (k - 1)) / 2 ^ k))] : List (Instr × (Nat → Nat → Nat))),
      (w = 64 ∨ maskOk vm vd.toNat = false → illegal p.1) ∧
      (w ≠ 64 → maskOk vm vd.toNat = true → vs2.toNat % 2 = 0 → vs2.toNat / 2 ≠ vd.toNat / 2 →
        VectorReady s ([vs2.toNat, vs2.toNat + 1, vs1.toNat] ++ maskReads vm) [vd.toNat] →
        exec p.1 s = .next (s.enteredQv.pass geo (.elems w vd.toNat 1) (s.whenActive vm fun i =>
          p.2 (v.elem geo (2 * w) vs2.toNat i) (v.elem geo w vs1.toNat i % (2 * w)))).retire))

/-- vmacc adds the product to the destination's old element, and vdot4, at SEW 32 alone, adds the four products of
signed bytes; both read vd under the full/empty rule (R99, R119, R122). The widening family writes a pair at twice the
width, which must overlap no source but the pair of a .wv form; the narrowing clips round half up, shift and limit a
pair's elements; SEW 64, a masked v0, an odd pair and an overlap raise cause 2 in every form (R97, R108, R118, R121). -/
def Obligations.AccumulateWidenAndClip : Prop :=
  (∀ (s : State) (vd vs2 vs1 rs1 : BitVec 5) (vm : BitVec 1),
      let v := s.core.vec
      let geo := v.geometry
      let w := s.sew
      let V : Operand := .vec vs1.toNat
      let X : Operand := .all ((s.x rs1).toNat % 2 ^ w)
      let sb (x k : Nat) : Int := (BitVec.ofNat 8 (x / 256 ^ k)).toInt
      let dot (a b : Nat) : Int := sb a 0 * sb b 0 + sb a 1 * sb b 1 + sb a 2 * sb b 2 + sb a 3 * sb b 3
      ∀ p ∈ ([(.vmaccVv vd vs2 vs1 vm, V, true, fun a b d => (d + a * b) % 2 ^ w),
          (.vmaccVx vd vs2 rs1 vm, X, true, fun a b d => (d + a * b) % 2 ^ w),
          (.vdot4Vv vd vs2 vs1 vm, V, w == 32, fun a b d => ((d + dot a b) % 2 ^ w).toNat),
          (.vdot4Vx vd vs2 rs1 vm, X, w == 32, fun a b d => ((d + dot a b) % 2 ^ w).toNat)] :
          List (Instr × Operand × Bool × (Nat → Nat → Nat → Nat))),
        (maskOk vm vd.toNat = false ∨ p.2.2.1 = false → exec p.1 s = .next (s.takeTrap 2 (s.core.ir.setWidth 64))) ∧
        (maskOk vm vd.toNat = true → p.2.2.1 = true →
          VectorReady s (vs2.toNat :: p.2.1.reads ++ [vd.toNat] ++ maskReads vm) [vd.toNat] →
          exec p.1 s = .next (s.enteredQv.pass geo (.elems w vd.toNat 1) (s.whenActive vm fun i =>
            p.2.2.2 (v.elem geo w vs2.toNat i) (p.2.1.at v geo w i) (v.elem geo w vd.toNat i))).retire)) ∧
  (∀ (s : State) (vd vs2 vs1 rs1 : BitVec 5) (vm : BitVec 1),
      let v := s.core.vec
      let geo := v.geometry
      let w := s.sew
      let V : Operand := .vec vs1.toNat
      let X : Operand := .all ((s.x rs1).toNat % 2 ^ w)
      let u (x : Nat) : Int := x
      let sg (x : Nat) : Int := if x < 2 ^ (w - 1) then x else (x : Int) - 2 ^ w
      let wr2 (z : Int) : Nat := (z % 2 ^ (2 * w)).toNat
      let half (z : Int) (k : Nat) : Int := if k = 0 then z else (z + 2 ^ (k - 1)) / 2 ^ k
      let sg2 (x : Nat) : Int := if x < 2 ^ (2 * w - 1) then x else (x : Int) - 2 ^ (2 * w)
      let limU (z : Int) : Nat := if z < 0 then 0 else if 2 ^ w ≤ z then 2 ^ w - 1 else z.toNat
      let limS (z : Int) : Nat :=
        ((if z < -(2 ^ (w - 1)) then -(2 ^ (w - 1)) else if 2 ^ (w - 1) ≤ z then 2 ^ (w - 1) - 1 else z : Int) % 2 ^ w).toNat
      (w ≠ 64 → maskOk vm vd.toNat = true →
        (vd.toNat % 2 = 0 → vs2.toNat / 2 ≠ vd.toNat / 2 →
          ∀ p ∈ ([(.vwadduVv vd vs2 vs1 vm, V, fun a b => wr2 (u a + u b)), (.vwadduVx vd vs2 rs1 vm, X, fun a b => wr2 (u a + u b)),
              (.vwaddVv vd vs2 vs1 vm, V, fun a b => wr2 (sg a + sg b)), (.vwaddVx vd vs2 rs1 vm, X, fun a b => wr2 (sg a + sg b)),
              (.vwmuluVv vd vs2 vs1 vm, V, fun a b => wr2 (u a * u b)), (.vwmuluVx vd vs2 rs1 vm, X, fun a b => wr2 (u a * u b)),
              (.vwmulVv vd vs2 vs1 vm, V, fun a b => wr2 (sg a * sg b)), (.vwmulVx vd vs2 rs1 vm, X, fun a b => wr2 (sg a * sg b))] :
              List (Instr × Operand × (Nat → Nat → Nat))),
            (∀ r ∈ p.2.1.reads, r / 2 ≠ vd.toNat / 2) →
            VectorReady s (vs2.toNat :: p.2.1.reads ++ maskReads vm) [vd.toNat, vd.toNat + 1] →
            exec p.1 s = .next (s.enteredQv.pass geo (.elems (2 * w) vd.toNat 2) (s.whenActive vm fun i =>
              p.2.2 (v.elem geo w vs2.toNat i) (p.2.1.at v geo w i))).retire) ∧
        (vd.toNat % 2 = 0 → vs2.toNat % 2 = 0 → vs1.toNat / 2 ≠ vd.toNat / 2 →
          VectorReady s ([vs2.toNat, vs2.toNat + 1, vs1.toNat] ++ maskReads vm) [vd.toNat, vd.toNat + 1] →
          ∀ p ∈ ([(.vwadduWv vd vs2 vs1 vm, u), (.vwaddWv vd vs2 vs1 vm, sg)] : List (Instr × (Nat → Int))),
            exec p.1 s = .next (s.enteredQv.pass geo (.elems (2 * w) vd.toNat 2) (s.whenActive vm fun i =>
              wr2 (v.elem geo (2 * w) vs2.toNat i + p.2 (v.elem geo w vs1.toNat i)))).retire) ∧
        (vs2.toNat % 2 = 0 → vs2.toNat / 2 ≠ vd.toNat / 2 →
          VectorReady s ([vs2.toNat, vs2.toNat + 1, vs1.toNat] ++ maskReads vm) [vd.toNat] →
          ∀ p ∈ ([(.vnclipuWv vd vs2 vs1 vm, fun a k => limU (half (u a) k)),
              (.vnclipWv vd vs2 vs1 vm, fun a k => limS (half (sg2 a) k))] : List (Instr × (Nat → Nat → Nat))),
            exec p.1 s = .next (s.enteredQv.pass geo (.elems w vd.toNat 1) (s.whenActive vm fun i =>
              p.2 (v.elem geo (2 * w) vs2.toNat i) (v.elem geo w vs1.toNat i % (2 * w)))).retire)) ∧
      (let vv : List Instr := [.vwadduVv vd vs2 vs1 vm, .vwaddVv vd vs2 vs1 vm, .vwmuluVv vd vs2 vs1 vm, .vwmulVv vd vs2 vs1 vm]
        let vx : List Instr := [.vwadduVx vd vs2 rs1 vm, .vwaddVx vd vs2 rs1 vm, .vwmuluVx vd vs2 rs1 vm, .vwmulVx vd vs2 rs1 vm]
        let wv : List Instr := [.vwadduWv vd vs2 vs1 vm, .vwaddWv vd vs2 vs1 vm]
        let clips : List Instr := [.vnclipuWv vd vs2 vs1 vm, .vnclipWv vd vs2 vs1 vm]
        let stops (i : Instr) : Prop := exec i s = .next (s.takeTrap 2 (s.core.ir.setWidth 64))
        (w = 64 ∨ maskOk vm vd.toNat = false → ∀ i ∈ vv ++ vx ++ wv ++ clips, stops i) ∧
          (vd.toNat % 2 ≠ 0 ∨ vs2.toNat / 2 = vd.toNat / 2 → ∀ i ∈ vv ++ vx, stops i) ∧
          (vs1.toNat / 2 = vd.toNat / 2 → ∀ i ∈ vv ++ wv, stops i) ∧
          (vd.toNat % 2 ≠ 0 ∨ vs2.toNat % 2 ≠ 0 → ∀ i ∈ wv, stops i) ∧
          (vs2.toNat % 2 ≠ 0 ∨ vs2.toNat / 2 = vd.toNat / 2 → ∀ i ∈ clips, stops i)))

/-- A compare writes the bit of every active element of the body: 1 where its condition holds of vs2's element and the
second operand (R109, R123). A reduction folds the active elements of vs2, in any order the same, into element 0 of
vd, seeded by element 0 of vs1; the other elements are tail (R124). -/
def Obligations.VectorComparesAndReductions : Prop :=
  (∀ (s : State) (cc : BitVec 3) (md : BitVec 2) (vs2 vs1 rs1 imm : BitVec 5) (vm : BitVec 1),
      let v := s.core.vec
      let geo := v.geometry
      let w := s.sew
      let sg (x : Nat) : Int := if x < 2 ^ (w - 1) then x else (x : Int) - 2 ^ w
      let holds (a b : Nat) : Bool := match cc.toNat with
        | 0 => decide (a = b) | 1 => decide (a ≠ b) | 2 => decide (a < b) | 3 => decide (sg a < sg b)
        | 4 => decide (a ≤ b) | 5 => decide (sg a ≤ sg b) | 6 => decide (a > b) | _ => decide (sg a > sg b)
      ∀ p ∈ ([(.vcmpVv cc md vs2 vs1 vm, .vec vs1.toNat), (.vcmpVx cc md vs2 rs1 vm, .all ((s.x rs1).toNat % 2 ^ w)),
          (.vcmpVi cc md vs2 imm vm, .all (imm.toInt % 2 ^ w).toNat)] : List (Instr × Operand)),
        VectorReady s (vs2.toNat :: p.2.reads ++ maskReads vm) [md.toNat] →
        exec p.1 s = .next (s.enteredQv.pass geo (.mask md.toNat) (s.whenActive vm fun i =>
          if holds (v.elem geo w vs2.toNat i) (p.2.at v geo w i) then 1 else 0)).retire) ∧
  (∀ (s : State) (vd vs2 vs1 : BitVec 5) (vm : BitVec 1),
      let v := s.core.vec
      let geo := v.geometry
      let w := s.sew
      let sg (x : Nat) : Int := if x < 2 ^ (w - 1) then x else (x : Int) - 2 ^ w
      VectorReady s ([vs2.toNat, vs1.toNat] ++ maskReads vm) [vd.toNat] →
      ∀ p ∈ ([(.vaddVs vd vs2 vs1 vm, fun a b => (a + b) % 2 ^ w), (.vminuVs vd vs2 vs1 vm, fun a b => min a b),
          (.vminVs vd vs2 vs1 vm, fun a b => if sg b < sg a then b else a), (.vmaxuVs vd vs2 vs1 vm, fun a b => max a b),
          (.vmaxVs vd vs2 vs1 vm, fun a b => if sg a < sg b then b else a), (.vandVs vd vs2 vs1 vm, fun a b => a &&& b),
          (.vorVs vd vs2 vs1 vm, fun a b => a ||| b), (.vxorVs vd vs2 vs1 vm, fun a b => a ^^^ b)] :
          List (Instr × (Nat → Nat → Nat))),
        exec p.1 s = .next (s.enteredQv.passAll geo (.elems w vd.toNat 1) 1 fun _ =>
          some (((s.activeBody vm).map (v.elem geo w vs2.toNat)).foldl p.2 (v.elem geo w vs1.toNat 0), 0)).retire)

/-- The mask operations write the body's bits from the bits of their sources, whatever v0 holds; vmpopc and vmfirst
count and find the set bits of active elements into x[rd]; vmprefix, viota and vid write what R125 gives each active
element. -/
def Obligations.VectorMasks : Prop :=
  ∀ (s : State) (vd vs2 vs1 rd : BitVec 5) (vm : BitVec 1),
    let v := s.core.vec
    let geo := v.geometry
    let w := s.sew
    let on (r : BitVec 5) (i : Nat) : Bool := v.maskBit geo r.toNat i
    let hits := (s.activeBody vm).filter (on vs2)
    (VectorReady s [vs2.toNat, vs1.toNat] [vd.toNat] →
      ∀ p ∈ ([(.vandMm vd vs2 vs1, (· && ·)), (.vorMm vd vs2 vs1, (· || ·)), (.vxorMm vd vs2 vs1, (· != ·))] :
          List (Instr × (Bool → Bool → Bool))),
        exec p.1 s = .next (s.enteredQv.passAll geo (.mask vd.toNat) s.vl fun i =>
          some (if p.2 (on vs2 i) (on vs1 i) then 1 else 0, 0)).retire) ∧
    (VectorReady s [vs2.toNat] [vd.toNat] →
      exec (.vmnot vd vs2) s = .next (s.enteredQv.passAll geo (.mask vd.toNat) s.vl fun i =>
        some (if on vs2 i then 0 else 1, 0)).retire) ∧
    (VectorReady s (vs2.toNat :: maskReads vm) [] →
      (∃ t, exec (.vmpopc rd vs2 vm) s = .next t ∧ t.x rd = (if rd = 0 then 0 else BitVec.ofNat 64 hits.length) ∧
        (∀ r, r ≠ rd → t.x r = s.x r) ∧ t.vstart = 0 ∧ t.core.vec.vrf = v.vrf ∧ Retired s t ∧ SameMemory s t) ∧
      (∃ t, exec (.vmfirst rd vs2 vm) s = .next t ∧
        t.x rd = (if rd = 0 then 0 else match hits.head? with | some i => BitVec.ofNat 64 i | none => -1) ∧
        (∀ r, r ≠ rd → t.x r = s.x r) ∧ t.vstart = 0 ∧ t.core.vec.vrf = v.vrf ∧ Retired s t ∧ SameMemory s t)) ∧
    (maskOk vm vd.toNat = true → VectorReady s (vs2.toNat :: maskReads vm) [vd.toNat] →
      exec (.vmprefix vd vs2 vm) s = .next (s.enteredQv.passAll geo (.mask vd.toNat) s.vl (s.whenActive vm fun i =>
        match hits.head? with
        | none => 1
        | some k => if i ≤ k then 1 else 0)).retire ∧
      (vd ≠ vs2 → exec (.viota vd vs2 vm) s = .next (s.enteredQv.passAll geo (.elems w vd.toNat 1) s.vl
        (s.whenActive vm fun i => (hits.filter fun k => k < i).length % 2 ^ w)).retire)) ∧
    (maskOk vm vd.toNat = true → VectorReady s (maskReads vm) [vd.toNat] →
      exec (.vid vd vm) s = .next (s.enteredQv.passAll geo (.elems w vd.toNat 1) s.vl
        (s.whenActive vm fun i => i % 2 ^ w)).retire)

/-- The permutations and moves write what R126 to R133 give each element; with kvcfg.G = 0 `vmv.x.s` reads slot 0 of the lane at
position 0 (the model's choice: log entry 65). -/
def Obligations.VectorPermutations : Prop :=
  ∀ (s : State) (vd vs2 vs1 rs1 imm rd : BitVec 5) (code : BitVec 4) (vm : BitVec 1),
    let v := s.core.vec
    let geo := v.geometry
    let w := s.sew
    let a (i : Nat) : Nat := v.elem geo w vs2.toNat i
    let b (i : Nat) : Nat := v.elem geo w vs1.toNat i
    let one := Dest.elems w vd.toNat 1
    let slide (d : Int) (i : Nat) : ElementResult :=
      if v.active geo vm i = false then none
      else if 0 ≤ d then (if i < d.toNat then none else some (a (i - d.toNat), 0))
      else some (if i + (-d).toNat < geo.cap w 1 then a (i + (-d).toNat) else 0, 0)
    let kept := (List.range s.vl).filter (v.maskBit geo 0)
    let fw := 2 ^ (code.toNat % 8)
    let fieldOf (i : Nat) : Nat := a (i * fw / w) / 2 ^ (i * fw % w) % 2 ^ fw
    let nc := 2 ^ imm.toNat
    let nr := s.vl / nc
    (maskOk vm vd.toNat = true → vd ≠ vs2 →
      (vd ≠ vs1 → VectorReady s ([vs2.toNat, vs1.toNat] ++ maskReads vm) [vd.toNat] →
        exec (.vpermVv vd vs2 vs1 vm) s = .next (s.enteredQv.passAll geo one s.vl (s.whenActive vm fun i =>
          if b i < geo.cap w 1 then a (b i) else 0)).retire ∧
        exec (.vlutVv vd vs2 vs1 vm) s = .next (s.enteredQv.pass geo one (s.whenActive vm fun i =>
          if b i < 16384 / geo.n / w then a (i % geo.g + geo.g * b i) else 0)).retire) ∧
      (VectorReady s (vs2.toNat :: maskReads vm) [vd.toNat] →
        exec (.vslideVx vd vs2 rs1 vm) s = .next (s.enteredQv.pass geo one (slide (s.x rs1).toInt)).retire ∧
        exec (.vslideVi vd vs2 imm vm) s = .next (s.enteredQv.pass geo one (slide imm.toInt)).retire ∧
        (fw ≤ w → exec (.vunpk vd vs2 code vm) s = .next (s.enteredQv.passAll geo one s.vl (s.whenActive vm fun i =>
          if code.getLsbD 3 && decide (2 ^ (fw - 1) ≤ fieldOf i) then 2 ^ w - 2 ^ fw + fieldOf i else fieldOf i)).retire) ∧
        exec (.vreshape vd vs2 imm vm) s = .next (s.enteredQv.passAll geo one s.vl (s.whenActive vm fun i =>
          if i < nr * nc then a (i % nr * nc + i / nr) else a i)).retire)) ∧
    (vd ≠ 0 → vd ≠ vs2 → VectorReady s [vs2.toNat, 0] [vd.toNat] →
      exec (.vcompress vd vs2) s = .next (s.enteredQv.passAll geo one kept.length fun k =>
        some (a (kept.getD k 0), 0)).retire ∧
      exec (.vexpand vd vs2) s = .next (s.enteredQv.passAll geo one s.vl fun i =>
        if v.maskBit geo 0 i then some (a ((List.range i).filter (v.maskBit geo 0)).length, 0) else none).retire) ∧
    (VectorReady s [vs1.toNat] [vd.toNat] →
      exec (.vmvVV vd vs1) s = .next (s.enteredQv.pass geo one fun i => some (b i, 0)).retire) ∧
    (VectorReady s [] [vd.toNat] →
      exec (.vmvVX vd rs1) s = .next (s.enteredQv.pass geo one fun _ => some ((s.x rs1).toNat % 2 ^ w, 0)).retire ∧
      (s.vstart = 0 → s.vl ≠ 0 → exec (.vmvSX vd rs1) s = .next ((((s.enteredQv.commit geo one 0
        (some ((s.x rs1).toNat % 2 ^ w, 0))).writeTail geo one 1).setVstart 0).retire)) ∧
      (s.vstart ≠ 0 ∨ s.vl = 0 → exec (.vmvSX vd rs1) s = .next (s.enteredQv.setVstart 0).retire)) ∧
    (vd ≠ 0 → VectorReady s [vs2.toNat, vs1.toNat, 0] [vd.toNat] →
      exec (.vmergeVvm vd vs2 vs1) s = .next (s.enteredQv.pass geo one fun i =>
        some (if v.maskBit geo 0 i then b i else a i, 0)).retire) ∧
    (vd ≠ 0 → VectorReady s [vs2.toNat, 0] [vd.toNat] →
      exec (.vmergeVxm vd vs2 rs1) s = .next (s.enteredQv.pass geo one fun i =>
        some (if v.maskBit geo 0 i then (s.x rs1).toNat % 2 ^ w else a i, 0)).retire) ∧
    (VectorReady s [vs2.toNat] [] → ∃ t, exec (.vmvXS rd vs2) s = .next t ∧
      t.x rd = (if rd = 0 then 0 else sext w (a 0)) ∧ (∀ r, r ≠ rd → t.x r = s.x r) ∧ t.vstart = 0 ∧
      t.core.vec.vrf = v.vrf ∧ Retired s t ∧ SameMemory s t)

/-- `vcfg` and `vcfgi` with a legal value grant g of the lanes the governor offers, set kvcfg, kvlmax and kvl from the
lane count, the register count and SEW, clear kvstart and VLX, and give kvl; a value that names no width, scope or
rounding mode raises cause 2. `vregs` gives the register count in force, leaves its own pending and clears kvstart
(R107, R112 to R114, R360). What an instruction of the lane classes, masked or not, checks before its first element, in the order of
R41: an operand that its form does not take (v0 under a mask, an odd pair, an overlap, a width), and a register that the count in
force does not have, raise cause 2; a pending lane change raises cause 31 and clears VLX; another lane mode raises
cause 25; and a read of an empty register whose kvfe bit is one raises cause 26 with its number (R96, R99, R108, R110,
R221), while an instruction that touches an empty register otherwise waits. In which order the registers it reads are looked at
(vs2, vs1, vd, v0) is the model's choice (log entry 29). -/
def Obligations.VectorConfigurationAndChecks : Prop :=
  (∀ (s : State) (rd rs1 rs2 code : BitVec 5) (imm : BitVec 11),
      let legal (c : Nat) : Prop := c < 2048 ∧ c % 8 ≤ 3 ∧ c / 8 % 8 ≤ 4 ∧ c / 256 % 8 ≤ 4
      let g := s.enteredQv.offer s.core.id
      let a := s.lanes
      let n := nregOf s.core.vec.cfg.nextReg
      let cost := laneCharge * (g - s.core.power.powered)
      ∀ p ∈ ([(.vcfg rd rs1 rs2, (s.x rs2).toNat), (.vcfgi rd rs1 imm, imm.toNat)] : List (Instr × Nat)),
        (¬legal p.2 → exec p.1 s = .next (s.takeTrap 2 (s.core.ir.setWidth 64))) ∧
        (legal p.2 → (s.core.vec.cfg.npend = 0 ∨ s.core.mat.ts = .off) → s.core.mat.mode ≠ .vector →
          exec p.1 s = .next (s.takeTrap 25 0)) ∧
        (legal p.2 → (s.core.vec.cfg.npend = 0 ∨ s.core.mat.ts = .off) → s.core.mat.mode = .vector →
          s.core.power.quietLoad = 0 →
          (s.corePinned s.core.id = true → s.core.power.powered < g → s.pinnedTurn s.core.id = true ∧
            s.netCharge s.core.id cost ≤ (s.die (dieOf s.core.id)).bUp) →
          let w := 8 * 2 ^ (p.2 % 8)
          let vlmax := a * (16384 / n) / w
          let avl := if rs1 = 0 then 2 ^ 64 - 1 else (s.x rs1).toNat
          ∃ t, exec p.1 s = .next t ∧ t.core.vec.kvlmax = BitVec.ofNat 17 vlmax ∧
            t.core.vec.kvl = BitVec.ofNat 17 (min avl (min vlmax (g * (16384 / n) / w))) ∧ t.vstart = 0 ∧
            t.core.vec.cfg.g = g ∧ t.core.vec.cfg.vlx = false ∧ t.core.vec.cfg.npend = 0 ∧ t.nreg = n ∧ t.sew = w ∧
            t.core.vec.cfg.tail = p.2.testBit 6 ∧ t.core.vec.cfg.ord = p.2.testBit 7 ∧
            t.core.vec.cfg.frm = BitVec.ofNat 3 (p.2 / 256) ∧ t.core.vec.cfg.scope = BitVec.ofNat 3 (p.2 / 8) ∧
            t.core.vec.cfg.pwr = decide (g < a) ∧ t.core.power.powered = g ∧
            t.x rd = (if rd = 0 then 0 else t.core.vec.kvl.setWidth 64) ∧ (∀ r, r ≠ rd → t.x r = s.x r) ∧
            t.core.vec.vrf = s.core.vec.vrf ∧ Retired s t ∧ SameMemory s t) ∧
        (s.core.mat.mode = .vector → s.core.power.quietLoad = 0 → ∃ t, exec (.vregs rd code) s = .next t ∧
          t.x rd = (if rd = 0 then 0 else BitVec.ofNat 64 s.nreg) ∧ (∀ r, r ≠ rd → t.x r = s.x r) ∧
          t.core.vec = { s.core.vec with kvstart := 0, cfg := { s.core.vec.cfg with npend :=
            (if code.setWidth 2 = s.core.vec.cfg.nreg then 0 else code.setWidth 2) } } ∧ Retired s t ∧ SameMemory s t)) ∧
  (∀ (s : State) (vd vs2 vs1 rs1 imm sel : BitVec 5) (u : BitVec 4) (cc : BitVec 3) (md rf : BitVec 2) (sr fmt af vm : BitVec 1),
      let d := vd.toNat
      let b := vs2.toNat
      let a := vs1.toNat
      let c := md.toNat
      let w := s.sew
      let m := maskReads vm
      let mk := maskOk vm d
      let fw : Bool := w == 16 || w == 32
      let pair (r : Nat) : Bool := r / 2 == d / 2
      let wide : Bool := mk && w != 64 && d % 2 == 0
      let forms : List (Bool × List Nat × List Nat × List Instr) :=
       [(mk, [b, a] ++ m, [d], [.vaddVv vd vs2 vs1 vm, .vsubVv vd vs2 vs1 vm, .vminuVv vd vs2 vs1 vm, .vminVv vd vs2
          vs1 vm, .vmaxuVv vd vs2 vs1 vm, .vmaxVv vd vs2 vs1 vm, .vandVv vd vs2 vs1 vm, .vorVv vd vs2 vs1 vm, .vxorVv
          vd vs2 vs1 vm, .vsllVv vd vs2 vs1 vm, .vsrlVv vd vs2 vs1 vm, .vsraVv vd vs2 vs1 vm, .vmulVv vd vs2 vs1 vm,
          .vmulhVv vd vs2 vs1 vm, .vdivuVv vd vs2 vs1 vm, .vdivVv vd vs2 vs1 vm, .vremuVv vd vs2 vs1 vm, .vremVv vd
          vs2 vs1 vm, .vsadduVv vd vs2 vs1 vm, .vsaddVv vd vs2 vs1 vm, .vssubuVv vd vs2 vs1 vm, .vssubVv vd vs2 vs1
          vm]),
        (mk, b :: m, [d], [.vaddVx vd vs2 rs1 vm, .vrsubVx vd vs2 rs1 vm, .vminuVx vd vs2 rs1 vm, .vminVx vd vs2 rs1
          vm, .vmaxuVx vd vs2 rs1 vm, .vmaxVx vd vs2 rs1 vm, .vandVx vd vs2 rs1 vm, .vorVx vd vs2 rs1 vm, .vxorVx vd
          vs2 rs1 vm, .vsllVx vd vs2 rs1 vm, .vsrlVx vd vs2 rs1 vm, .vsraVx vd vs2 rs1 vm, .vmulVx vd vs2 rs1 vm,
          .vmulhVx vd vs2 rs1 vm, .vdivuVx vd vs2 rs1 vm, .vdivVx vd vs2 rs1 vm, .vremuVx vd vs2 rs1 vm, .vremVx vd
          vs2 rs1 vm, .vsadduVx vd vs2 rs1 vm, .vsaddVx vd vs2 rs1 vm, .vssubuVx vd vs2 rs1 vm, .vssubVx vd vs2 rs1
          vm, .vaddVi vd vs2 imm vm, .vrsubVi vd vs2 imm vm, .vandVi vd vs2 imm vm, .vorVi vd vs2 imm vm, .vxorVi vd
          vs2 imm vm, .vsllVi vd vs2 imm vm, .vsrlVi vd vs2 imm vm, .vsraVi vd vs2 imm vm, .vsadduVi vd vs2 imm vm,
          .vsaddVi vd vs2 imm vm, .vmprefix vd vs2 vm]),
        (mk, [b, a, d] ++ m, [d], [.vmaccVv vd vs2 vs1 vm]),
        (mk && w == 32, [b, a, d] ++ m, [d], [.vdot4Vv vd vs2 vs1 vm]),
        (mk, [b, d] ++ m, [d], [.vmaccVx vd vs2 rs1 vm]),
        (mk && w == 32, [b, d] ++ m, [d], [.vdot4Vx vd vs2 rs1 vm]),
        (true, [b, a] ++ m, [d], [.vaddVs vd vs2 vs1 vm, .vminuVs vd vs2 vs1 vm, .vminVs vd vs2 vs1 vm, .vmaxuVs vd
          vs2 vs1 vm, .vmaxVs vd vs2 vs1 vm, .vandVs vd vs2 vs1 vm, .vorVs vd vs2 vs1 vm, .vxorVs vd vs2 vs1 vm]),
        (true, [b, a], [d], [.vandMm vd vs2 vs1, .vorMm vd vs2 vs1, .vxorMm vd vs2 vs1]),
        (true, [b, a] ++ m, [c], [.vcmpVv cc md vs2 vs1 vm]),
        (true, b :: m, [c], [.vcmpVx cc md vs2 rs1 vm, .vcmpVi cc md vs2 imm vm]),
        (wide && !(pair b) && !(pair a), [b, a] ++ m, [d, d + 1], [.vwadduVv vd vs2 vs1 vm, .vwaddVv vd vs2 vs1 vm,
          .vwmuluVv vd vs2 vs1 vm, .vwmulVv vd vs2 vs1 vm]),
        (wide && !(pair b), b :: m, [d, d + 1], [.vwadduVx vd vs2 rs1 vm, .vwaddVx vd vs2 rs1 vm, .vwmuluVx vd vs2 rs1
          vm, .vwmulVx vd vs2 rs1 vm]),
        (wide && b % 2 == 0 && !(pair a), [b, b + 1, a] ++ m, [d, d + 1], [.vwadduWv vd vs2 vs1 vm, .vwaddWv vd vs2
          vs1 vm]),
        (mk && w != 64 && b % 2 == 0 && !(pair b), [b, b + 1, a] ++ m, [d], [.vnclipuWv vd vs2 vs1 vm, .vnclipWv vd
          vs2 vs1 vm]),
        (true, b :: m, [], [.vmpopc vd vs2 vm, .vmfirst vd vs2 vm]),
        (mk, m, [d], [.vid vd vm]),
        (true, [b], [d], [.vmnot vd vs2]),
        (mk && d != b, b :: m, [d], [.viota vd vs2 vm, .vslideVx vd vs2 rs1 vm, .vslideVi vd vs2 imm vm, .vreshape vd
          vs2 imm vm]),
        (mk && d != b && decide (2 ^ (u.toNat % 8) ≤ w), b :: m, [d], [.vunpk vd vs2 u vm]),
        (mk && d != b && d != a, [b, a] ++ m, [d], [.vpermVv vd vs2 vs1 vm, .vlutVv vd vs2 vs1 vm]),
        (d != 0 && d != b, [b, 0], [d], [.vcompress vd vs2, .vexpand vd vs2]),
        (true, [a], [d], [.vmvVV vd vs1]),
        (true, [], [d], [.vmvVX vd rs1, .vmvSX vd rs1]),
        (true, [b], [], [.vmvXS vd vs2]),
        (d != 0, [b, a, 0], [d], [.vmergeVvm vd vs2 vs1]),
        (d != 0, [b, 0], [d], [.vmergeVxm vd vs2 rs1]),
        (fw && mk, [b, a] ++ m, [d], [.vfaddVv vd vs2 vs1 vm, .vfsubVv vd vs2 vs1 vm, .vfmulVv vd vs2 vs1 vm, .vfdivVv
          vd vs2 vs1 vm, .vfminVv vd vs2 vs1 vm, .vfmaxVv vd vs2 vs1 vm, .vfsgnjVv vd vs2 vs1 vm, .vfsgnjnVv vd vs2
          vs1 vm]),
        (fw && mk, b :: m, [d], [.vfaddVf vd vs2 rs1 vm, .vfsubVf vd vs2 rs1 vm, .vfmulVf vd vs2 rs1 vm, .vfdivVf vd
          vs2 rs1 vm, .vfminVf vd vs2 rs1 vm, .vfmaxVf vd vs2 rs1 vm, .vfsgnjVf vd vs2 rs1 vm, .vfsgnjnVf vd vs2 rs1
          vm, .vfsqrt vd vs2 vm, .vfclass vd vs2 vm, .vfexp2 vd vs2 vm, .vfrcp vd vs2 vm, .vflog2 vd vs2 vm]),
        (fw && mk, [b, a, d] ++ m, [d], [.vfmaccVv vd vs2 vs1 vm, .vfmsacVv vd vs2 vs1 vm, .vfnmaccVv vd vs2 vs1 vm,
          .vfnmsacVv vd vs2 vs1 vm]),
        (fw && mk, [b, d] ++ m, [d], [.vfmaccVf vd vs2 rs1 vm, .vfmsacVf vd vs2 rs1 vm, .vfnmaccVf vd vs2 rs1 vm,
          .vfnmsacVf vd vs2 rs1 vm]),
        (fw, [b, a] ++ m, [c], [.vfcmpVv cc md vs2 vs1 vm]),
        (fw, b :: m, [c], [.vfcmpVf cc md vs2 rs1 vm]),
        (w == 16 && mk && d % 2 == 0 && !(pair b) && !(pair a), [b, a, d, d + 1] ++ m, [d, d + 1], [.vfwmaccF16Vv vd
          vs2 vs1 vm, .vfwmaccBf16Vv vd vs2 vs1 vm]),
        (w == 16 && mk && d % 2 == 0 && !(pair b), [b, d, d + 1] ++ m, [d, d + 1], [.vfwmaccF16Vf vd vs2 rs1 vm,
          .vfwmaccBf16Vf vd vs2 rs1 vm]),
        (fw, [b, a] ++ m, [d], [.vftsumVs vd vs2 vs1 vm, .vfminVs vd vs2 vs1 vm, .vfmaxVs vd vs2 vs1 vm]),
        (fw && mk, [b, a] ++ (if s.vstart = 0 then [] else [d]) ++ m, [d], [.vfosumVs vd vs2 vs1 vm]),
        (mk && ((convertFormats w sel).any fun q => d != b || q.1.width == q.2.width), b :: m, [d], [.vfcvt vd vs2 sel
          rf vm]),
        (fw && d != 1 && b != 1 && d != b, [b], [d, 1], [.vbq vd vs2 sr fmt]),
        (fw && mk && d != 1 && b != 1 && d != b, [b, 1] ++ m, [d], [.vbdq vd vs2 fmt vm]),
        (b != 1, [b], [1], [.vscl vs2]),
        (true, [], [1], [.vsclVx rs1]),
        (true, [], [], [.vseed rs1, .vsbase rs1]),
        (w == 8 && d != 1 && b != 1 && d != b, [b, 1, d] ++ m, [d], [.vfredbs vd vs2 fmt vm]),
        (w == 8 && mk && d != 1 && b != 1 && a != 1 && d != b && d != a, [b, a, 1, d] ++ m, [d], [.vfwdotbs vd vs2 vs1
          fmt af vm])]
      ∀ p ∈ forms, ∀ i ∈ p.2.2.2,
        let reads := p.2.1
        let named := reads ++ p.2.2.1
        (p.1 = false ∨ (∃ r ∈ named, s.nreg ≤ r) → exec i s = .next (s.takeTrap 2 (s.core.ir.setWidth 64))) ∧
        (p.1 = true → (∀ r ∈ named, r < s.nreg) →
          (s.core.vec.cfg.vlx = true →
            exec i s = .next ((s.mapVec fun v => { v with cfg := { v.cfg with vlx := false } }).takeTrap 31 0)) ∧
          (s.core.vec.cfg.vlx = false → s.core.mat.mode ≠ .vector → exec i s = .next (s.takeTrap 25 0)) ∧
          (s.core.vec.cfg.vlx = false → s.core.mat.mode = .vector → s.core.power.quietLoad = 0 →
            (∀ r, (reads.find? fun r => !s.isFull r && s.core.vec.kvfe.getLsbD r) = some r →
              exec i s = .next (s.enteredQv.takeTrap 26 (BitVec.ofNat 64 r))) ∧
            ((∀ r ∈ reads, s.isFull r = true ∨ s.core.vec.kvfe.getLsbD r = false) → (∃ r ∈ named, s.isFull r = false) →
              exec i s = .next s.enteredQv.stall))))

/-! ### Vector floating point and narrow formats -/

/-- The elementwise floating-point instructions compute at FP16 or FP32 by SEW, rounding by kvcfg.FRM, and accumulate
their flags in kvfflags; at another SEW they raise cause 2 (R134, R139, R142, R143, R146 to R150). That the .vf forms run
whatever mstatus.FS holds is the model's choice (log entry 64). -/
def Obligations.VectorFloatFamily : Prop :=
  ∀ (s : State) (vd vs2 vs1 rs1 : BitVec 5) (cc : BitVec 3) (md : BitVec 2) (vm : BitVec 1),
    let v := s.core.vec
    let geo := v.geometry
    let w := s.sew
    let f := if w = 32 then fp32 else fp16
    let r := Rounding.ofCode v.cfg.frm
    let V : Operand := .vec vs1.toNat
    let F : Operand := .all ((s.f rs1).toNat % 2 ^ w)
    let x (c : Nat) : FVal := f.value c
    let flip (c : Nat) (neg : Bool) : Nat := c % 2 ^ (w - 1) + if neg then 2 ^ (w - 1) else 0
    let two : List (Instr × Operand × Bool × (Nat → Nat → Nat → Nat × Flags)) :=
      [(.vfaddVv vd vs2 vs1 vm, V, false, fun a b _ => f.add r (x a) (x b)),
        (.vfaddVf vd vs2 rs1 vm, F, false, fun a b _ => f.add r (x a) (x b)),
        (.vfsubVv vd vs2 vs1 vm, V, false, fun a b _ => f.sub r (x a) (x b)),
        (.vfsubVf vd vs2 rs1 vm, F, false, fun a b _ => f.sub r (x a) (x b)),
        (.vfmulVv vd vs2 vs1 vm, V, false, fun a b _ => f.mul r (x a) (x b)),
        (.vfmulVf vd vs2 rs1 vm, F, false, fun a b _ => f.mul r (x a) (x b)),
        (.vfdivVv vd vs2 vs1 vm, V, false, fun a b _ => f.div r (x a) (x b)),
        (.vfdivVf vd vs2 rs1 vm, F, false, fun a b _ => f.div r (x a) (x b)),
        (.vfminVv vd vs2 vs1 vm, V, false, fun a b _ => f.bound false a b),
        (.vfminVf vd vs2 rs1 vm, F, false, fun a b _ => f.bound false a b),
        (.vfmaxVv vd vs2 vs1 vm, V, false, fun a b _ => f.bound true a b),
        (.vfmaxVf vd vs2 rs1 vm, F, false, fun a b _ => f.bound true a b),
        (.vfmaccVv vd vs2 vs1 vm, V, true, fun a b d => f.fma r false false (x a) (x b) (x d)),
        (.vfmaccVf vd vs2 rs1 vm, F, true, fun a b d => f.fma r false false (x a) (x b) (x d)),
        (.vfmsacVv vd vs2 vs1 vm, V, true, fun a b d => f.fma r false true (x a) (x b) (x d)),
        (.vfmsacVf vd vs2 rs1 vm, F, true, fun a b d => f.fma r false true (x a) (x b) (x d)),
        (.vfnmaccVv vd vs2 vs1 vm, V, true, fun a b d => f.fma r true true (x a) (x b) (x d)),
        (.vfnmaccVf vd vs2 rs1 vm, F, true, fun a b d => f.fma r true true (x a) (x b) (x d)),
        (.vfnmsacVv vd vs2 vs1 vm, V, true, fun a b d => f.fma r true false (x a) (x b) (x d)),
        (.vfnmsacVf vd vs2 rs1 vm, F, true, fun a b d => f.fma r true false (x a) (x b) (x d)),
        (.vfsgnjVv vd vs2 vs1 vm, V, false, fun a b _ => (flip a (b.testBit (w - 1)), 0)),
        (.vfsgnjVf vd vs2 rs1 vm, F, false, fun a b _ => (flip a (b.testBit (w - 1)), 0)),
        (.vfsgnjnVv vd vs2 vs1 vm, V, false, fun a b _ => (flip a (!b.testBit (w - 1)), 0)),
        (.vfsgnjnVf vd vs2 rs1 vm, F, false, fun a b _ => (flip a (!b.testBit (w - 1)), 0))]
    let one : List (Instr × (Nat → Nat × Flags)) :=
      [(.vfsqrt vd vs2 vm, fun a => f.sqrt r (x a)), (.vfclass vd vs2 vm, fun a => (f.classOf a, 0)),
        (.vfexp2 vd vs2 vm, fun a => f.exp2 r (x a)), (.vfrcp vd vs2 vm, fun a => f.rcp r (x a)),
        (.vflog2 vd vs2 vm, fun a => f.log2 (x a))]
    let compares : List (Instr × Operand) := [(.vfcmpVv cc md vs2 vs1 vm, V), (.vfcmpVf cc md vs2 rs1 vm, F)]
    let act (i : Nat) : Bool := v.active geo vm i
    (w ≠ 16 → w ≠ 32 → ∀ i ∈ two.map (·.1) ++ one.map (·.1) ++ compares.map (·.1),
      exec i s = .next (s.takeTrap 2 (s.core.ir.setWidth 64))) ∧
    (w = 16 ∨ w = 32 →
      (maskOk vm vd.toNat = true → ∀ p ∈ two,
        VectorReady s (vs2.toNat :: p.2.1.reads ++ (if p.2.2.1 then [vd.toNat] else []) ++ maskReads vm) [vd.toNat] →
        exec p.1 s = .next (s.enteredQv.pass geo (.elems w vd.toNat 1) fun i => if act i then
          some (p.2.2.2 (v.elem geo w vs2.toNat i) (p.2.1.at v geo w i) (v.elem geo w vd.toNat i)) else none).retire) ∧
      (maskOk vm vd.toNat = true → VectorReady s (vs2.toNat :: maskReads vm) [vd.toNat] → ∀ p ∈ one,
        exec p.1 s = .next (s.enteredQv.pass geo (.elems w vd.toNat 1) fun i => if act i then
          some (p.2 (v.elem geo w vs2.toNat i)) else none).retire) ∧
      (∀ p ∈ compares, VectorReady s (vs2.toNat :: p.2.reads ++ maskReads vm) [md.toNat] →
        exec p.1 s = .next (s.enteredQv.pass geo (.mask md.toNat) fun i => if act i then
          let c := f.compare cc.toNat (v.elem geo w vs2.toNat i) (p.2.at v geo w i)
          some (if c.1 then 1 else 0, c.2) else none).retire))

/-- The widening accumulates (R151), the tree sum, the ordered sum, which a kvstart above 0 takes up from element 0 of
vd, and the bound reductions (R152 to R154), at the widths they accept. That the .vf forms run whatever mstatus.FS holds is the
model's choice (log entry 64). -/
def Obligations.VectorFloatReductions : Prop :=
  ∀ (s : State) (vd vs2 vs1 rs1 : BitVec 5) (vm : BitVec 1),
    let v := s.core.vec
    let geo := v.geometry
    let w := s.sew
    let f := if w = 32 then fp32 else fp16
    let r := Rounding.ofCode v.cfg.frm
    let V : Operand := .vec vs1.toNat
    let F : Operand := .all ((s.f rs1).toNat % 2 ^ 16)
    let seed := v.elem geo w vs1.toNat 0
    let leaf (i : Nat) : Option Nat := if v.active geo vm i then some (v.elem geo w vs2.toNat i) else none
    let leaves := (List.range s.vl).map leaf
    let present := leaves.filterMap id
    let bound (top : Bool) : Nat × Flags :=
      (present.foldl (fun a x => (f.bound top a x).1) seed,
        if present ≠ [] ∧ ((seed :: present).any fun x => (f.value x).isSnan) then flagNV else 0)
    (w = 16 → maskOk vm vd.toNat = true → vd.toNat % 2 = 0 → vs2.toNat / 2 ≠ vd.toNat / 2 →
      ∀ p ∈ ([(.vfwmaccF16Vv vd vs2 vs1 vm, V, fp16), (.vfwmaccF16Vf vd vs2 rs1 vm, F, fp16),
          (.vfwmaccBf16Vv vd vs2 vs1 vm, V, bf16), (.vfwmaccBf16Vf vd vs2 rs1 vm, F, bf16)] :
          List (Instr × Operand × Format)), (∀ q ∈ p.2.1.reads, q / 2 ≠ vd.toNat / 2) →
        VectorReady s (vs2.toNat :: p.2.1.reads ++ [vd.toNat, vd.toNat + 1] ++ maskReads vm) [vd.toNat, vd.toNat + 1] →
        exec p.1 s = .next (s.enteredQv.pass geo (.elems 32 vd.toNat 2) fun i => if v.active geo vm i then
          some (fp32.fma r false false (p.2.2.value (v.elem geo 16 vs2.toNat i)) (p.2.2.value (p.2.1.at v geo 16 i))
            (fp32.value (v.elem geo 32 vd.toNat i))) else none).retire) ∧
    (w = 16 ∨ w = 32 →
      (VectorReady s ([vs2.toNat, vs1.toNat] ++ maskReads vm) [vd.toNat] →
        ∀ p ∈ ([(.vftsumVs vd vs2 vs1 vm, treeSum f r seed leaves), (.vfminVs vd vs2 vs1 vm, bound false),
            (.vfmaxVs vd vs2 vs1 vm, bound true)] : List (Instr × (Nat × Flags))),
          exec p.1 s = .next (s.enteredQv.passAll geo (.elems w vd.toNat 1) 1 fun _ => some p.2).retire) ∧
      (maskOk vm vd.toNat = true →
        VectorReady s ([vs2.toNat, vs1.toNat] ++ (if s.vstart = 0 then [] else [vd.toNat]) ++ maskReads vm) [vd.toNat] →
        (s.vl ≤ s.vstart → exec (.vfosumVs vd vs2 vs1 vm) s = .next (s.enteredQv.setVstart 0).retire) ∧
        (s.vstart < s.vl →
          let start := if s.vstart = 0 then seed else v.elem geo w vd.toNat 0
          let total := (leaves.drop s.vstart).filterMap id |>.foldl (fun a x =>
            ((f.add r (f.value a.1) (f.value x)).1, a.2 ||| (f.add r (f.value a.1) (f.value x)).2)) (start, 0)
          exec (.vfosumVs vd vs2 vs1 vm) s = .next (((s.enteredQv.commit geo (.elems w vd.toNat 1) 0
            (some total)).writeTail geo (.elems w vd.toNat 1) 1).setVstart 0).retire)))

/-- The conversions, the block quantisation and expansion, the scale moves, the seeds and the block sums of
07_narrow_formats, each at the widths and registers it accepts. That vseed and vsbase clear kvstart too is the model's
choice (log entry 43). -/
def Obligations.NarrowFormats : Prop :=
  ∀ (s : State) (vd vs2 vs1 rs1 sel : BitVec 5) (rf : BitVec 2) (sr fmt af vm : BitVec 1),
    let v := s.core.vec
    let geo := v.geometry
    let w := s.sew
    let f := if w = 32 then fp32 else fp16
    let r := Rounding.ofCode v.cfg.frm
    let k := blockFormat fmt
    let blocks := (s.vl + 15) / 16
    let act (i : Nat) : Bool := v.active geo vm i
    let inBlock (b : Nat) : List Nat := ((List.range 16).map (16 * b + ·)).filter fun i => i < s.vl && act i
    let code (i : Nat) : FVal := k.value (v.elem geo 16 1 (i / 16)) (v.elem geo k.width vs2.toNat i)
    let scales := Dest.elems 16 1 1
    (∀ src dst, convertFormats w sel = some (src, dst) → maskOk vm vd.toNat = true → (vd ≠ vs2 ∨ src.width = dst.width) →
      VectorReady s (vs2.toNat :: maskReads vm) [vd.toNat] →
      exec (.vfcvt vd vs2 sel rf vm) s = .next (s.enteredQv.pass geo (.elems dst.width vd.toNat 1) fun i => if act i then
        some (convert src dst (convertRounding rf v.cfg.frm v.seed (v.kstripbase + BitVec.ofNat 64 i))
          (v.elem geo src.width vs2.toNat i)) else none).retire) ∧
    (convertFormats w sel = none → exec (.vfcvt vd vs2 sel rf vm) s = .next (s.takeTrap 2 (s.core.ir.setWidth 64))) ∧
    (w = 16 ∨ w = 32 → vd ≠ 1 → vs2 ≠ 1 → vd ≠ vs2 →
      (VectorReady s [vs2.toNat] [vd.toNat, 1] →
        let value (i : Nat) : FVal := if i < s.vl then f.value (v.elem geo w vs2.toNat i) else .fin false 0 0
        let round (i : Nat) : Rounding :=
          if sr = 0 then .rne else .sr (stochastic v.seed (v.kstripbase + BitVec.ofNat 64 i))
        let out := (List.range blocks).map fun b => k.quantise v.bqDelta.toNat (fun j => round (16 * b + j))
          ((List.range 16).map fun j => value (16 * b + j))
        exec (.vbq vd vs2 sr fmt) s = .next (((s.enteredQv.raiseVector (out.foldl (fun fl c => fl ||| c.2.2) 0)).passAll
          geo scales blocks fun b => some ((out.getD b (0, [], 0)).1, 0)).passAll geo (.elems k.width vd.toNat 1)
            (16 * blocks) fun i => some ((out.flatMap (·.2.1)).getD i 0, 0)).retire) ∧
      (maskOk vm vd.toNat = true → VectorReady s ([vs2.toNat, 1] ++ maskReads vm) [vd.toNat] →
        exec (.vbdq vd vs2 fmt vm) s = .next (s.enteredQv.pass geo (.elems w vd.toNat 1) fun i => if act i then
          some (f.rnd r (code i)) else none).retire)) ∧
    (vs2 ≠ 1 → VectorReady s [vs2.toNat] [1] → exec (.vscl vs2) s = .next (s.enteredQv.passAll geo scales blocks fun b =>
      some (v.elem geo 16 vs2.toNat b, 0)).retire) ∧
    (VectorReady s [] [1] → exec (.vsclVx rs1) s = .next (s.enteredQv.passAll geo scales blocks fun _ =>
      some ((s.x rs1).toNat % 65536, 0)).retire) ∧
    (VectorReady s [] [] →
      (∃ t, exec (.vseed rs1) s = .next t ∧ Retired s t ∧ SameMemory s t ∧ t.core.regs = s.core.regs ∧
        t.core.vec = { v with kvstart := 0, seed := (s.x rs1).setWidth 32, bqDelta := (s.x rs1).extractLsb' 32 4 }) ∧
      (∃ t, exec (.vsbase rs1) s = .next t ∧ Retired s t ∧ SameMemory s t ∧ t.core.regs = s.core.regs ∧
        t.core.vec = { v with kvstart := 0, kstripbase := s.x rs1 })) ∧
    (w = 8 → vd ≠ 1 → vs2 ≠ 1 → vd ≠ vs2 →
      (VectorReady s ([vs2.toNat, 1, vd.toNat] ++ maskReads vm) [vd.toNat] →
        let node (b : Nat) : Option Nat × Flags :=
          if inBlock b = [] then (none, 0) else
            (some (fp32.sum r ((inBlock b).map code)).1, (fp32.sum r ((inBlock b).map code)).2)
        let nodes := (List.range blocks).map node
        let total := treeSum fp32 r (v.elem geo 32 vd.toNat 0) (nodes.map (·.1))
        exec (.vfredbs vd vs2 fmt vm) s = .next (s.enteredQv.passAll geo (.elems 32 vd.toNat 1) 1 fun _ =>
          some (total.1, nodes.foldl (fun fl n => fl ||| n.2) total.2)).retire) ∧
      (maskOk vm vd.toNat = true → vs1 ≠ 1 → vd ≠ vs1 →
        VectorReady s ([vs2.toNat, vs1.toNat, 1, vd.toNat] ++ maskReads vm) [vd.toNat] →
        let a := if af = 0 then e4m3 else e5m2
        exec (.vfwdotbs vd vs2 vs1 fmt af vm) s = .next (s.enteredQv.passAll geo (.elems 32 vd.toNat 1) blocks fun b =>
          if inBlock b = [] then none else
            some (blockDot r (fp32.value (v.elem geo 32 vd.toNat b))
              ((inBlock b).map fun i => (code i, a.value (v.elem geo 8 vs1.toNat i))))).retire))

/-! ### Vector memory -/

/-- A vector load with nothing left to do, kvstart at or above kvl, only clears kvstart. Otherwise its accesses run in
element order, those of an indexed or 2D load once the pages of their batch are translated (R187); once all of them succeed its tail follows, its group becomes empty until the load lands, and kvstart is
cleared. With physical addresses and nothing in the way, each active element of the body holds the bytes at its
address, which are R206's: base plus i elements, plus i strides, plus an index, or a place of the 2D tile. The first
active element in element order whose address is misaligned (cause 4) or not legal (cause 5) stops the load: kvstart is
its number, the elements below it are loaded, the others keep their values, and the group stays full (R201, R206, R207,
R216 to R219).
The pages of an indexed or 2D access are translated a batch at a time before the accesses to them (R187); where a batch ends, and
that A, S and N are set element by element, are the model's choices (log entries 90 and 91). -/
def Obligations.VectorLoads : Prop :=
  ∀ (s : State) (mu : BitVec 1) (hint w : BitVec 2) (vd rs1 rs2 vs2 : BitVec 5) (vm : BitVec 1),
    let ew := 8 * 2 ^ w.toNat
    let v := s.core.vec
    let geo := v.geometry
    let b := s.x rs1
    let c := s.vl / v.rows.toNat
    let class_ := hintClass hint
    ∀ p ∈ ([(.vleE mu hint vd rs1 w vm,
          ⟨true, ew, vd.toNat, none, unitAddr rs1 ew, fun _ => true, if hint = 1 then .stream else .none, class_, false⟩,
          fun i => b + BitVec.ofNat 64 (i * (ew / 8))),
        (.vlseE mu hint vd rs1 rs2 w vm,
          ⟨true, ew, vd.toNat, none, stridedAddr rs1 rs2, fun _ => true, .none, class_, false⟩,
          fun i => b + BitVec.ofNat 64 i * s.x rs2),
        (.vlxeE mu hint vd rs1 vs2 w vm,
          ⟨true, ew, vd.toNat, some vs2.toNat, indexedAddr rs1 vs2, fun _ => true, .gather, class_, true⟩,
          fun i => b + BitVec.ofNat 64 (v.elem geo s.sew vs2.toNat i)),
        (.vlt2E mu hint vd rs1 w vm,
          ⟨true, ew, vd.toNat, none, tileAddr rs1 ew, fun s => decide (s.core.vec.rows ≠ 0) && s.vl % s.core.vec.rows.toNat == 0,
            .none, class_, true⟩,
          fun i => b + BitVec.ofNat 64 (i / c) * v.pitch.signExtend 64 + BitVec.ofNat 64 (i % c * (ew / 8)))] :
        List (Instr × VectorAccess × (Nat → Word))),
      (mu = 1 → hint = 3 → exec p.1 s = .next (s.takeTrap 2 (s.core.ir.setWidth 64))) ∧
      (¬(mu = 1 ∧ hint = 3) → MemoryReady s p.2.1 vm →
        let group := p.2.1.group s.sew
        (s.vl ≤ s.vstart → exec p.1 s = .next (s.setVstart 0).retire) ∧
        (s.vstart < s.vl →
          (∀ s', p.2.1.accesses s vm s = .ok () s' →
            exec p.1 s = .next (((s'.writeTail geo (.elems ew vd.toNat group.length) s.vl).markEmpty group).setVstart 0).retire) ∧
          (s.Plain → geo.Good → s.core.Canonical → s.vl ≤ geo.cap ew group.length →
            (∀ i, s.vstart ≤ i → i < s.vl → v.active geo vm i = true → s.Usable (p.2.2 i) (ew / 8)) →
            ∃ t, exec p.1 s = .next t ∧ t.vstart = 0 ∧ Retired s t ∧ SameMemory s t ∧ t.core.regs = s.core.regs ∧
              (∀ r ∈ group, t.isFull r = false) ∧
              ∀ i, i < s.vl → t.core.vec.elem geo ew vd.toNat i =
                if s.vstart ≤ i ∧ v.active geo vm i = true then s.readPA (p.2.2 i).toNat (ew / 8)
                else v.elem geo ew vd.toNat i) ∧
          (∀ e, s.Plain → geo.Good → s.core.Canonical → s.vl ≤ geo.cap ew group.length →
            s.vstart ≤ e → e < s.vl → v.active geo vm e = true → ¬s.Usable (p.2.2 e) (ew / 8) →
            (∀ i, s.vstart ≤ i → i < e → v.active geo vm i = true → s.Usable (p.2.2 i) (ew / 8)) →
            ∃ t : State, exec p.1 s = .next (t.takeTrap (vmuCause true (p.2.2 e) (ew / 8)) (p.2.2 e)) ∧ t.vstart = e ∧
              t.core.vec.full = v.full ∧ t.core.pc = s.core.pc ∧ t.core.regs = s.core.regs ∧ SameMemory s t ∧
              ∀ i, i < s.vl → t.core.vec.elem geo ew vd.toNat i =
                if s.vstart ≤ i ∧ i < e ∧ v.active geo vm i = true then s.readPA (p.2.2 i).toNat (ew / 8)
                else v.elem geo ew vd.toNat i)))

/-- A vector store with nothing left to do only clears kvstart; otherwise its accesses run in element order. With
physical addresses and nothing in the way, each active element of the body that no later one overwrites stands in
memory at its address, and every byte outside them is unchanged. The first active element in element order whose
address is misaligned (cause 6) or not legal (cause 7) stops the store: kvstart is its number, and the elements below it
are stored and no other (R206, R207, R216 to R219).
The pages of an indexed or 2D access are translated a batch at a time before the accesses to them (R187); where a batch ends, and
that A, S and N are set element by element, are the model's choices (log entries 90 and 91). -/
def Obligations.VectorStores : Prop :=
  ∀ (s : State) (mu : BitVec 1) (hint w : BitVec 2) (vs3 rs1 rs2 vs2 : BitVec 5) (vm : BitVec 1),
    let ew := 8 * 2 ^ w.toNat
    let v := s.core.vec
    let geo := v.geometry
    let b := s.x rs1
    let c := s.vl / v.rows.toNat
    let class_ := hintClass hint
    let stored (i : Nat) : Prop :=
      s.vstart ≤ i ∧ i < s.vl ∧ v.active geo vm i = true
    ∀ p ∈ ([(.vseE mu hint vs3 rs1 w vm,
          ⟨false, ew, vs3.toNat, none, unitAddr rs1 ew, fun _ => true, if hint = 1 then .stream else .none, class_, false⟩,
          fun i => b + BitVec.ofNat 64 (i * (ew / 8))),
        (.vsseE mu hint vs3 rs1 rs2 w vm,
          ⟨false, ew, vs3.toNat, none, stridedAddr rs1 rs2, fun _ => true, .none, class_, false⟩,
          fun i => b + BitVec.ofNat 64 i * s.x rs2),
        (.vsxeE mu hint vs3 rs1 vs2 w vm,
          ⟨false, ew, vs3.toNat, some vs2.toNat, indexedAddr rs1 vs2, fun _ => true, .gather, class_, true⟩,
          fun i => b + BitVec.ofNat 64 (v.elem geo s.sew vs2.toNat i)),
        (.vst2E mu hint vs3 rs1 w vm,
          ⟨false, ew, vs3.toNat, none, tileAddr rs1 ew, fun s => decide (s.core.vec.rows ≠ 0) && s.vl % s.core.vec.rows.toNat == 0,
            .none, class_, true⟩,
          fun i => b + BitVec.ofNat 64 (i / c) * v.pitch.signExtend 64 + BitVec.ofNat 64 (i % c * (ew / 8)))] :
        List (Instr × VectorAccess × (Nat → Word))),
      (mu = 1 → hint = 3 → exec p.1 s = .next (s.takeTrap 2 (s.core.ir.setWidth 64))) ∧
      (¬(mu = 1 ∧ hint = 3) → MemoryReady s p.2.1 vm →
        (s.vl ≤ s.vstart → exec p.1 s = .next (s.setVstart 0).retire) ∧
        (s.vstart < s.vl →
          (∀ s', p.2.1.accesses s vm s = .ok () s' → exec p.1 s = .next (s'.setVstart 0).retire) ∧
          (s.Plain → s.Inv → (∀ i, stored i → s.Usable (p.2.2 i) (ew / 8)) →
            ∃ t, exec p.1 s = .next t ∧ t.vstart = 0 ∧ Retired s t ∧ t.core.regs = s.core.regs ∧ t.core.vec.vrf = v.vrf ∧
              (∀ i, stored i →
                (∀ j, i < j → stored j → Apart (p.2.2 i).toNat (ew / 8) (p.2.2 j).toNat (ew / 8)) →
                t.readPA (p.2.2 i).toNat (ew / 8) = v.elem geo ew vs3.toNat i) ∧
              ∀ a, (∀ i, stored i → Apart a 1 (p.2.2 i).toNat (ew / 8)) → t.byteAt a = s.byteAt a) ∧
          (∀ e, s.Plain → s.Inv → stored e → ¬s.Usable (p.2.2 e) (ew / 8) →
            (∀ i, stored i → i < e → s.Usable (p.2.2 i) (ew / 8)) →
            ∃ t : State, exec p.1 s = .next (t.takeTrap (vmuCause false (p.2.2 e) (ew / 8)) (p.2.2 e)) ∧ t.vstart = e ∧
              t.core.pc = s.core.pc ∧ t.core.regs = s.core.regs ∧ t.core.vec.vrf = v.vrf ∧
              (∀ i, stored i → i < e →
                (∀ j, i < j → j < e → stored j → Apart (p.2.2 i).toNat (ew / 8) (p.2.2 j).toNat (ew / 8)) →
                t.readPA (p.2.2 i).toNat (ew / 8) = v.elem geo ew vs3.toNat i) ∧
              ∀ a, (∀ i, stored i → i < e → Apart a 1 (p.2.2 i).toNat (ew / 8)) → t.byteAt a = s.byteAt a)))

/-- Whole-register accesses move every 64-bit unit of one register over all lanes in service, whatever kvl holds, from
kvstart on: unit j, of the lane at position j mod A and the slot j / A, is the 8 bytes at x[rs1] + 8j. With physical
addresses and nothing in the way, `vlr` leaves every such unit holding the bytes at its address, every other unit of
every register as it was, and its register empty until it lands; `vsr` leaves the bytes of every such unit at its
address and no other byte changed. The first unit whose address is misaligned or not legal stops either at its number,
with those below it done. LOAD_LANDED makes the registers of a load full (R201, R207, R220). -/
def Obligations.WholeRegisters : Prop :=
  (∀ (s : State) (mu : BitVec 1) (hint : BitVec 2) (r rs1 : BitVec 5),
    let v := s.core.vec
    let units := s.lanes * 256 / s.nreg
    let adr (j : Nat) : Word := s.x rs1 + BitVec.ofNat 64 (8 * j)
    let keeps (t : State) : Prop := ∀ q j, q < s.nreg → q ≠ r.toNat → j < units → t.core.vec.unit q j = v.unit q j
    (mu = 1 → hint = 3 → ∀ i ∈ [Instr.vlr mu hint r rs1, .vsr mu hint r rs1],
      exec i s = .next (s.takeTrap 2 (s.core.ir.setWidth 64))) ∧
    (¬(mu = 1 ∧ hint = 3) → r.toNat < s.nreg → s.core.vec.cfg.vlx = false → s.core.mat.mode = .vector →
      s.isFull r.toNat = true → s.core.stopAt = none → s.Plain → v.wholeGeometry.Good →
      (s.core.Canonical → s.loadsInFlight < 32 →
        ((∀ j, s.vstart ≤ j → j < units → s.Usable (adr j) 8) →
          ∃ t, exec (.vlr mu hint r rs1) s = .next t ∧ t.vstart = 0 ∧ Retired s t ∧ SameMemory s t ∧
            t.core.regs = s.core.regs ∧ t.isFull r.toNat = false ∧ keeps t ∧
            ∀ j, j < units → t.core.vec.unit r.toNat j =
              if s.vstart ≤ j then s.readPA (adr j).toNat 8 else v.unit r.toNat j) ∧
        ∀ e, s.vstart ≤ e → e < units → ¬s.Usable (adr e) 8 → (∀ j, s.vstart ≤ j → j < e → s.Usable (adr j) 8) →
          ∃ t : State, exec (.vlr mu hint r rs1) s = .next (t.takeTrap (vmuCause true (adr e) 8) (adr e)) ∧ t.vstart = e ∧
            t.core.pc = s.core.pc ∧ t.core.regs = s.core.regs ∧ t.core.vec.full = v.full ∧ SameMemory s t ∧
            ∀ j, j < units → t.core.vec.unit r.toNat j =
              if s.vstart ≤ j ∧ j < e then s.readPA (adr j).toNat 8 else v.unit r.toNat j) ∧
      (s.Inv →
        ((∀ j, s.vstart ≤ j → j < units → s.Usable (adr j) 8) →
          ∃ t, exec (.vsr mu hint r rs1) s = .next t ∧ t.vstart = 0 ∧ Retired s t ∧ t.core.regs = s.core.regs ∧
            t.core.vec.vrf = v.vrf ∧
            (∀ j, s.vstart ≤ j → j < units →
              (∀ k, j < k → k < units → Apart (adr j).toNat 8 (adr k).toNat 8) →
              t.readPA (adr j).toNat 8 = v.unit r.toNat j) ∧
            ∀ a, (∀ j, s.vstart ≤ j → j < units → Apart a 1 (adr j).toNat 8) → t.byteAt a = s.byteAt a) ∧
        ∀ e, s.vstart ≤ e → e < units → ¬s.Usable (adr e) 8 → (∀ j, s.vstart ≤ j → j < e → s.Usable (adr j) 8) →
          ∃ t : State, exec (.vsr mu hint r rs1) s = .next (t.takeTrap (vmuCause false (adr e) 8) (adr e)) ∧ t.vstart = e ∧
            t.core.pc = s.core.pc ∧ t.core.regs = s.core.regs ∧ t.core.vec.vrf = v.vrf ∧
            (∀ j, s.vstart ≤ j → j < e →
              (∀ k, j < k → k < e → Apart (adr j).toNat 8 (adr k).toNat 8) →
              t.readPA (adr j).toNat 8 = v.unit r.toNat j) ∧
            ∀ a, (∀ j, s.vstart ≤ j → j < e → Apart a 1 (adr j).toNat 8) → t.byteAt a = s.byteAt a))) ∧
  (∀ (s : State) (core index : Nat) (m : BitVec 32), core < 2304 → (s.coreOf core).vec.inFlight[index]? = some m →
    ∃ t, exec (.loadLanded core index) s = .next t ∧
      (t.coreOf core).vec = { (s.coreOf core).vec with
        full := (s.coreOf core).vec.full ||| m, inFlight := (s.coreOf core).vec.inFlight.eraseIdx index } ∧
      (t.coreOf core).regs = (s.coreOf core).regs ∧ (t.coreOf core).pc = (s.coreOf core).pc ∧ t.mem = s.mem)

/-! ### Memory management -/

/-- The hints and the cache operations change no register and no byte of memory, and clear kvstart: `vprefetch` and
`vresid` count a page that may not be read in khintdrop, `cclean` leaves every line of its range clean, `cinval`
leaves none of it in the core's own caches, and `tlbinv` removes the translations it names from every core and engine,
and every walker's entries (R193 to R197). `mdiscard` of a mapped 64 KiB page sets Z in its leaf and makes the page
zero, and changes no other byte; a range that is not a whole number of pages raises cause 6, one above 2^28 cause 2.
That it sets A and D too, that a length of 0 completes even with a misaligned base, and that a page without a leaf
raises cause 7 are the model's choices (log entry 32), and so are that `tlbinv` empties the walkers, whatever it names (log
entry 13), and that a hint is never cut short (log entry 103). The write that revives a discarded page (PAGE_REVIVAL), also by its physical address or through another leaf, zeroes it
and clears Z. `l2conv` waits for an earlier drain, takes ways for scratchpad once they have drained and gives their
number, `l2rest` returns them, and the way's bytes are then zero; both give −2 for a bad count and −1 for ways not
permitted (R189, R190, R195, R198, R199). -/
def Obligations.CacheAndPageOperations : Prop :=
  (∀ (s : State) (mu : BitVec 1) (hint : BitVec 2) (rs1 rs2 : BitVec 5),
      let a := (s.x rs1).toNat
      let n := (s.x rs2).toNat
      let dies0 := s.Plain ∧ s.vstart = 0 ∧ 0 < n ∧ a + n ≤ 2 ^ 37
      let done (t : State) : Prop := Retired s t ∧ t.vstart = 0 ∧ KeepsOthers 0 s t
      let inRange (line : Nat) : Prop := a / 128 ≤ line ∧ 128 * line < a + n
      let gone (e : TlbEntry) : Prop :=
        (rs1 = 0 ∨ e.page = a / 2 ^ leafBits e.level) ∧ (rs2 = 0 ∨ e.asid = (s.x rs2).setWidth 16 ∧ bit e.pte 5 = false)
      (mu = 1 → hint = 3 → ∀ i ∈ [Instr.vprefetch mu hint rs1 rs2, .vresid mu hint rs1 rs2, .cclean mu hint rs1 rs2,
          .cinval mu hint rs1 rs2, .tlbinv mu hint rs1 rs2],
        exec i s = .next (s.takeTrap 2 (s.core.ir.setWidth 64))) ∧
      (¬(mu = 1 ∧ hint = 3) → s.core.vec.cfg.vlx = false →
        (∀ i ∈ [Instr.vprefetch mu hint rs1 rs2, .vresid mu hint rs1 rs2], ∃ t, exec i s = .next t ∧ done t ∧
          (∀ x, 0 < n → a % 65536 + n ≤ 65536 → s.resolve s.vmuSpace .load (s.x rs1) = .error x →
            t.core.khintdrop = s.core.khintdrop + 1)) ∧
        (n ≤ 2 ^ 28 → s.core.stopAt = none →
          (∃ t, exec (.cclean mu hint rs1 rs2) s = .next t ∧ done t ∧
            (dies0 → ∀ l ∈ t.mem.l2, inRange l.line → l.dirty = false)) ∧
          (∃ t, exec (.cinval mu hint rs1 rs2) s = .next t ∧ done t ∧
            (dies0 → ∀ l ∈ t.core.dcache ++ t.core.icache, ¬inRange l.line))) ∧
        (2 ^ 28 < n → ∀ i ∈ [Instr.cclean mu hint rs1 rs2, .cinval mu hint rs1 rs2],
          exec i s = .next (s.takeTrap 2 (s.core.ir.setWidth 64))) ∧
        (s.core.priv ≠ .user → (rs2 = 0 ∨ n < 65536) → ∃ t, exec (.tlbinv mu hint rs1 rs2) s = .next t ∧ done t ∧
          (∀ c ∈ t.cores, ∀ e ∈ c.tlb ++ c.vtlb, ¬gone e) ∧ (∀ e ∈ t.mem.engineTlb, ¬gone e.2) ∧ t.mem.walkers = [] ∧
          (∀ e ∈ s.core.tlb, ¬gone e → e ∈ t.core.tlb) ∧ ∀ e ∈ s.core.vtlb, ¬gone e → e ∈ t.core.vtlb) ∧
        (s.core.priv = .user ∨ rs2 ≠ 0 ∧ 65536 ≤ n →
          exec (.tlbinv mu hint rs1 rs2) s = .next (s.takeTrap 2 (s.core.ir.setWidth 64))))) ∧
  (∀ (s : State) (mu : BitVec 1) (hint : BitVec 2) (rd rs1 rs2 : BitVec 5) (die slice : Nat) (va : Word),
      let a := s.x rs1
      let n := s.x rs2
      let k := a.toNat
      let cur := s.core.converted
      let scratch (c i : Nat) : Nat := 3 * 2 ^ 48 + c * 2 ^ 20 + i
      (¬(mu = 1 ∧ hint = 3) → s.core.vec.cfg.vlx = false →
        (n = 0 → ∃ t, exec (.mdiscard mu hint rs1 rs2) s = .next t ∧ Retired s t ∧ KeepsOthers 0 s t ∧ t.vstart = 0) ∧
        (n ≠ 0 → n.toNat ≤ 2 ^ 28 → a.toNat % 65536 ≠ 0 ∨ n.toNat % 65536 ≠ 0 →
          exec (.mdiscard mu hint rs1 rs2) s = .next (s.takeTrap 6 a)) ∧
        (2 ^ 28 < n.toNat → exec (.mdiscard mu hint rs1 rs2) s = .next (s.takeTrap 2 (s.core.ir.setWidth 64))) ∧
        (∀ pa e trail, s.Inv → s.core.stopAt = none → s.vstart = 0 → n.toNat = 65536 → a.toNat % 65536 = 0 →
          s.resolve s.vmuSpace .store a = .ok (pa, some (e, trail)) → isHbm pa = true → e.level ≠ 1 →
          ∃ t, exec (.mdiscard mu hint rs1 rs2) s = .next t ∧ Retired s t ∧ t.core.regs = s.core.regs ∧ t.vstart = 0 ∧
            (∀ i < 65536, t.byteAt (pa + i) = 0) ∧
            (Apart e.pteAddr 8 pa 65536 → t.readPA e.pteAddr 8 = s.readPA e.pteAddr 8 ||| 0x10C0) ∧
            ∀ b, Apart b 1 pa 65536 → Apart b 1 e.pteAddr 8 → t.byteAt b = s.byteAt b) ∧
        (∀ pa, s.core.stopAt = none → s.vstart = 0 → n ≠ 0 → n.toNat ≤ 2 ^ 28 → n.toNat % 65536 = 0 → a.toNat % 65536 = 0 →
          s.resolve s.vmuSpace .store a = .ok (pa, none) →
          exec (.mdiscard mu hint rs1 rs2) s = .next ((s.setVstart 0).takeTrap 7 a)) ∧
        (s.core.drain ≠ none → exec (.l2conv mu hint rd rs1) s = .next s) ∧
        (s.core.drain = none → 8 < k ∨ k < cur → ∃ t, exec (.l2conv mu hint rd rs1) s = .next t ∧ t.x rd = (if rd = 0 then 0 else -2) ∧
          Retired s t ∧ KeepsOthers rd s t) ∧
        (s.core.drain = none → ¬(8 < k ∨ k < cur) → s.waysPermitted cur k = false → ∃ t, exec (.l2conv mu hint rd rs1) s = .next t ∧
          t.x rd = (if rd = 0 then 0 else -1) ∧ Retired s t ∧ KeepsOthers rd s t) ∧
        (k ≤ 8 → s.waysPermitted cur k = true → s.core.drain = none →
          (k = cur → ∃ t, exec (.l2conv mu hint rd rs1) s = .next t ∧ t.x rd = (if rd = 0 then 0 else a) ∧ Retired s t ∧
            t.vstart = 0 ∧ KeepsOthers rd s t) ∧
          (cur < k → exec (.l2conv mu hint rd rs1) s = .next (s.mapCore fun c => { c with drain := some k }))) ∧
        (cur < k → ∃ t, exec (.l2rest mu hint rd rs1) s = .next t ∧ t.x rd = (if rd = 0 then 0 else -2) ∧ Retired s t ∧
          KeepsOthers rd s t) ∧
        (k ≤ cur → s.waysPermitted k cur = false → ∃ t, exec (.l2rest mu hint rd rs1) s = .next t ∧
          t.x rd = (if rd = 0 then 0 else -1) ∧ Retired s t ∧ KeepsOthers rd s t) ∧
        (k ≤ cur → s.waysPermitted k cur = true → s.core.drain = none → ∃ t, exec (.l2rest mu hint rd rs1) s = .next t ∧
          t.x rd = (if rd = 0 then 0 else a) ∧ (∀ r, r ≠ rd → t.x r = s.x r) ∧ Retired s t ∧ t.vstart = 0 ∧
          t.core.converted = k ∧ ∀ i, 131072 * k ≤ i → i < 131072 * cur → t.byteAt (scratch s.core.id i) = 0)) ∧
      (∀ k, die < 24 → slice < 96 → (s.coreOf (96 * die + slice)).drain = some k →
        ∃ t, exec (.wayDrainComplete die slice) s = .next t ∧ (t.coreOf (96 * die + slice)).converted = k ∧
          (t.coreOf (96 * die + slice)).drain = none ∧
          ∀ i, 131072 * (s.coreOf (96 * die + slice)).converted ≤ i → i < 131072 * k →
            t.byteAt (scratch (96 * die + slice) i) = 0) ∧
      (s.core.id < 2304 →
        let revived (d : Discard) : Prop := ∃ t, exec (.pageRevival s.core.id va) s = .next t ∧ t.core.regs = s.core.regs ∧
          t.core.pc = s.core.pc ∧ ((∀ i < 2 ^ d.bits, Apart d.pteAddr 8 (d.base + i) 1) →
            (∀ i < 2 ^ d.bits, t.byteAt (d.base + i) = 0) ∧ (t.readPA d.pteAddr 8).testBit 12 = false)
        let clear (x : Option (TlbEntry × List WalkEntry)) : Prop := ∀ p, x = some p → bit p.1.pte 12 = false
        let at_ (pa : Nat) : Option Discard := s.mem.discards.find? fun d => pageHolds d.base d.bits (canonical pa)
        (∀ pa e trail, s.core.run ≠ .halted → s.Inv → s.resolve s.vmuSpace .store va = .ok (pa, some (e, trail)) →
          bit e.pte 12 = true → revived e.discard) ∧
        (∀ pa x d, s.core.run ≠ .halted → s.Inv → s.resolve s.vmuSpace .store va = .ok (pa, x) → clear x → at_ pa = some d →
          (s.readPA d.pteAddr 8).testBit 12 = true → revived d) ∧
        (∀ pa x, s.resolve s.vmuSpace .store va = .ok (pa, x) → clear x → at_ pa = none →
          exec (.pageRevival s.core.id va) s = .next s) ∧
        (s.core.run = .halted → exec (.pageRevival s.core.id va) s = .next s)))

/-! ### Atomics and synchronisation -/

/-- `vamo` gives each active element of the body the memory operand at its address and stores what its operation makes
of that and of the element; `vredmem` folds the active elements and applies one operation at x[rs1]. With physical
addresses, nothing in the way and no two elements in common, each is so; other widths, operations and register choices
raise cause 2 (R291, R295, R302, R303). -/
def Obligations.VectorAtomics : Prop :=
  ∀ (s : State) (op : BitVec 3) (red vd vs3 rs1 vs2 : BitVec 5) (vm : BitVec 1),
    let v := s.core.vec
    let geo := v.geometry
    let w := s.sew
    let n := w / 8
    let sg (x : Nat) : Int := if x < 2 ^ (w - 1) then x else (x : Int) - 2 ^ w
    let add (a b : Nat) : Nat := (a + b) % 2 ^ w
    let fadd (a b : Nat) : Nat := (fp32.add .rne (fp32.value a) (fp32.value b)).1
    let mn (a b : Nat) : Nat := if sg b < sg a then b else a
    let mx (a b : Nat) : Nat := if sg a < sg b then b else a
    let adr (i : Nat) : Word := s.x rs1 + BitVec.ofNat 64 (v.elem geo w vs2.toNat i)
    let stored (i : Nat) : Prop := s.vstart ≤ i ∧ i < s.vl ∧ v.active geo vm i = true
    let amo (i : Nat) : Nat → Nat → Nat := match i with
      | 0 => add | 1 => fun _ b => b | 2 => fun a b => a &&& b | 3 => fun a b => a ||| b | 4 => mn | 5 => mx | _ => fadd
    let fold (i : Nat) : Nat → Nat → Nat := match i with
      | 0 => add | 2 => mn | 3 => mx | 4 => min | 5 => max | 6 => fun a b => a &&& b | 7 => fun a b => a ||| b
      | _ => fun a b => a ^^^ b
    let xs := (s.activeBody vm).map (v.elem geo w vs3.toNat)
    (op = 7 ∨ ¬(w = 32 ∨ w = 64 ∧ op ≠ 6) ∨ maskOk vm vd.toNat = false ∨ vd = vs2 →
      exec (.vamo op vd rs1 vs2 vm) s = .next (s.takeTrap 2 (s.core.ir.setWidth 64))) ∧
    (op ≠ 7 → (w = 32 ∨ w = 64 ∧ op ≠ 6) → maskOk vm vd.toNat = true → vd ≠ vs2 →
      s.VmuReady true [vd.toNat, vs2.toNat] vm →
      (s.vl ≤ s.vstart → exec (.vamo op vd rs1 vs2 vm) s = .next (s.setVstart 0).retire) ∧
      (s.vstart < s.vl → s.Plain → s.Inv → geo.Good → s.core.Canonical → s.vl ≤ geo.cap w 1 →
        (∀ i, stored i → s.Usable (adr i) n) →
        (∀ i j, stored i → stored j → i ≠ j → Apart (adr i).toNat n (adr j).toNat n) →
        ∃ t, exec (.vamo op vd rs1 vs2 vm) s = .next t ∧ t.vstart = 0 ∧ Retired s t ∧ t.core.regs = s.core.regs ∧
          t.isFull vd.toNat = false ∧
          (∀ i, i < s.vl → v.active geo vm i = false ∨ i < s.vstart → t.core.vec.elem geo w vd.toNat i = v.elem geo w vd.toNat i) ∧
          (∀ i, stored i → t.core.vec.elem geo w vd.toNat i = s.readPA (adr i).toNat n ∧
            t.readPA (adr i).toNat n = amo op.toNat (s.readPA (adr i).toNat n) (v.elem geo w vd.toNat i)) ∧
          ∀ a, (∀ i, stored i → Apart a 1 (adr i).toNat n) → t.byteAt a = s.byteAt a)) ∧
    (8 < red.toNat ∨ ¬(w = 32 ∨ w = 64 ∧ red ≠ 1) →
      exec (.vredmem red vs3 rs1 vm) s = .next (s.takeTrap 2 (s.core.ir.setWidth 64))) ∧
    (red.toNat ≤ 8 → (w = 32 ∨ w = 64 ∧ red ≠ 1) → s.VmuReady false [vs3.toNat] vm →
      (xs = [] → exec (.vredmem red vs3 rs1 vm) s = .next (s.setVstart 0).retire) ∧
      (∀ y ys, xs = y :: ys → s.Plain → s.Inv → s.Usable (s.x rs1) n →
        ∃ t, exec (.vredmem red vs3 rs1 vm) s = .next t ∧ t.vstart = 0 ∧ Retired s t ∧ t.core.regs = s.core.regs ∧
          t.core.vec.vrf = v.vrf ∧
          (red ≠ 1 → t.readPA (s.x rs1).toNat n =
            fold red.toNat (s.readPA (s.x rs1).toNat n) (ys.foldl (fold red.toNat) y)) ∧
          (red = 1 → ∃ root, (treeRoot fp32 s.vectorRounding s.vl (v.leaves geo vm w vs3.toNat s.vl)).1 = some root ∧
            t.readPA (s.x rs1).toNat n = fadd (s.readPA (s.x rs1).toNat n) root) ∧
          MemoryOutside (s.x rs1).toNat n s t))

/-- `vglk` loads each active element of the body, takes a reservation for it (all of them where at most 64 elements
are active, those below kvstart included) and, once done, empties the data cache. `vscc` stores each active element whose reservation holds at its
address, writes its bit of md, and drops the reservation; a failed one stores nothing. So it is with physical
addresses, nothing in the way and no two elements in common (R292, R304, R305). -/
def Obligations.GatherLinkedScatterConditional : Prop :=
  ∀ (s : State) (md : BitVec 2) (vd vs3 rs1 vs2 : BitVec 5) (vm : BitVec 1),
    let v := s.core.vec
    let geo := v.geometry
    let w := s.sew
    let n := w / 8
    let adr (i : Nat) : Word := s.x rs1 + BitVec.ofNat 64 (v.elem geo w vs2.toNat i)
    let stored (i : Nat) : Prop := s.vstart ≤ i ∧ i < s.vl ∧ v.active geo vm i = true
    let wins (i : Nat) : Bool := s.core.holdsElement i (adr i).toNat
    let usable := s.Plain ∧ s.Inv ∧ geo.Good ∧ s.core.Canonical ∧ s.vl ≤ geo.cap w 1 ∧ ∀ i, stored i → s.Usable (adr i) n
    (¬(w = 32 ∨ w = 64) → ∀ i ∈ [Instr.vglk vd rs1 vs2 vm, .vscc md vs3 rs1 vs2 vm],
      exec i s = .next (s.takeTrap 2 (s.core.ir.setWidth 64))) ∧
    ((w = 32 ∨ w = 64) → maskOk vm vd.toNat = true → vd ≠ vs2 → s.VmuReady true [vd.toNat, vs2.toNat] vm → s.vstart < s.vl →
      usable →
      ∃ t, exec (.vglk vd rs1 vs2 vm) s = .next t ∧ t.vstart = 0 ∧ Retired s t ∧ KeepsOthers 0 s t ∧ t.core.dcache = [] ∧
        t.isFull vd.toNat = false ∧
        (∀ i, i < s.vl → t.core.vec.elem geo w vd.toNat i =
          if s.vstart ≤ i ∧ v.active geo vm i = true then s.readPA (adr i).toNat n else v.elem geo w vd.toNat i) ∧
        ((s.activeBody vm).length ≤ 64 →
          ∀ i, stored i → ⟨i, (adr i).toNat, s.core.clock⟩ ∈ t.core.vec.reservations)) ∧
    ((w = 32 ∨ w = 64) → s.VmuReady false [vs3.toNat, vs2.toNat] vm → s.isFull md.toNat = true → s.vstart < s.vl → usable →
      ReleaseFree (if v.cfg.scope = 0 then 0 else 1) s →
      (∀ i j, stored i → stored j → i ≠ j → Apart (adr i).toNat n (adr j).toNat n) →
      ∃ t, exec (.vscc md vs3 rs1 vs2 vm) s = .next t ∧ t.vstart = 0 ∧ Retired s t ∧ t.core.regs = s.core.regs ∧
        (∀ i, i < s.vl → t.core.vec.maskBit geo md.toNat i =
          if s.vstart ≤ i ∧ v.active geo vm i = true then wins i else v.maskBit geo md.toNat i) ∧
        (∀ i, stored i → t.readPA (adr i).toNat n =
          (if wins i then v.elem geo w vs3.toNat i else s.readPA (adr i).toNat n) ∧
          ∀ r ∈ t.core.vec.reservations, r.element ≠ i) ∧
        ∀ a, (∀ i, stored i → Apart a 1 (adr i).toNat n) → t.byteAt a = s.byteAt a)

/-- The barriers: `barinit` sets the count and gives the generation, which it advances where arrivals are pending;
`vfencebar` is a release, for which it waits until its phase may move, and one arrival, whatever has become of the barrier since its
check, and the last one of a generation begins the next; `barwait` waits while its
generation is the present one, and is then an acquire, whatever has become of the barrier meanwhile. Each misuse raises
cause 53 with its code (R297 to R300). -/
def Obligations.Barriers : Prop :=
  ∀ (s : State) (rd rs1 rs2 : BitVec 5),
    let h := s.x rs1
    let k := s.x rs2
    let level := h.toNat / 256 % 4
    let place := (level, (if level = 0 then s.core.id / 12 else if level = 1 then s.core.id / 96 else 0), h.toNat % 64)
    let valid := h.toNat < 1024 ∧ h.toNat / 64 % 4 = 0 ∧ level ≠ 3 ∧ (level = 2 → h.toNat % 64 < 16)
    let misuse (code : Nat) : Host.Outcome State Fault Refusal :=
      .next (s.takeTrap 53 (BitVec.ofNat 64 (65536 * code + h.toNat % 1024)))
    let b := s.mem.barrier place
    let gives (u t : State) (g : BitVec 16) : Prop :=
      t.x rd = (if rd = 0 then 0 else g.setWidth 64) ∧ KeepsOthers rd s t ∧ Retired s t ∧ FrameAccess u t
    let d := b.gen - k.setWidth 16
    s.core.vec.cfg.vlx = false →
    (¬valid → ∀ i ∈ [Instr.barinit rd rs1 rs2, .vfencebar rd rs1, .barwait rd rs1 rs2], exec i s = misuse 1) ∧
    (valid →
      (65535 < k.toNat → exec (.barinit rd rs1 rs2) s = misuse 1 ∧ exec (.barwait rd rs1 rs2) s = misuse 1) ∧
      (k.toNat ≤ 65535 →
        (b.arrived ≠ 0 → s.core.priv = .user → exec (.barinit rd rs1 rs2) s = misuse 3) ∧
        (¬(b.arrived ≠ 0 ∧ s.core.priv = .user) →
          let g := if b.arrived ≠ 0 then b.gen + 1 else b.gen
          ∃ t, exec (.barinit rd rs1 rs2) s = .next t ∧ gives s t g ∧
            t.mem.barrier place = ⟨place.1, place.2.1, place.2.2, decide (k ≠ 0), k.setWidth 16, 0, g⟩)) ∧
      (b.init = false → s.core.begun ≠ .barrier → exec (.vfencebar rd rs1) s = misuse 2 ∧
        (k.toNat ≤ 65535 → exec (.barwait rd rs1 rs2) s = misuse 2)) ∧
      (b.init = true ∨ s.core.begun = .barrier → ¬ReleaseFree 1 s →
        exec (.vfencebar rd rs1) s = .next (s.mapCore fun c => { c with begun := .barrier })) ∧
      (b.init = true ∨ s.core.begun = .barrier → ReleaseFree 1 s → ∃ t, exec (.vfencebar rd rs1) s = .next t ∧ gives (s.afterRelease 1) t b.gen ∧
        t.core.phase = s.core.phase + 1 ∧
        t.mem.barrier place = (if b.arrived + 1 = b.count then { b with arrived := 0, gen := b.gen + 1 }
          else { b with arrived := b.arrived + 1 })) ∧
      (k.toNat ≤ 65535 → b.init = true ∨ s.core.begun = .barrier →
        (32768 ≤ d.toNat → s.core.begun ≠ .barrier → exec (.barwait rd rs1 rs2) s = misuse 4) ∧
        (d = 0 → exec (.barwait rd rs1 rs2) s = .next (s.mapCore fun c => { c with begun := .barrier })) ∧
        (d ≠ 0 → d.toNat < 32768 ∨ s.core.begun = .barrier →
          ∃ t, exec (.barwait rd rs1 rs2) s = .next t ∧ gives s t b.gen ∧ t.core.dcache = [])))

/-! ### Lane modes and the matrix array -/

/-- `lmode` to the mode in force only retires. To another mode, once the loads into the tile store have landed, every
micro-thread is stopped and the target's charge is paid, it sets the mode; leaving matrix mode unskews the tiles and
disarms the weights, with every tile word kept, and entering threaded mode empties the queues, and the block buffers too (the model's choice: log entry 87). It waits in Draining
until the loads have landed; a running micro-thread, or maquette service where the target is threaded or matrix, raises
cause 25. LMODE_DRAINED, unless an enabled interrupt is pending, and LMODE_SWITCH_DONE take the same two steps on their
own, and with the second the `lmode` retires (R221, R222, R225, R226, R250, R383); a fatal error stops them with their core (R380). The slots of the operand store. `mclaim` takes a Free slot, zeroes
it and leaves it Ready, or, with `.rx`, Filling for a chain; `mrelease` zeroes and frees a claimed slot and disarms
weights taken from it; `mslotld` fills a Ready slot with the 16 KiB at x[rs1] once ql has room; `mwload` arms a slot's image, with its
partner's for a block format; a slot on which a load or a chain has not landed makes each wait. Each misuse raises cause 50 with
its code (R235, R238, R244, R245, R247). That `mslotld` waits on a slot that is Filling, and that code 1 stands before code 3,
are the model's choices (log entry 81). -/
def Obligations.LaneModesAndSlots : Prop :=
  (∀ (s : State) (mode : BitVec 5),
      let m : LaneMode := if mode = 0 then .vector else if mode = 1 then .threaded else .matrix
      let landed := ∀ r, s.tileStore ≤ r → r < s.nreg → s.isFull r = true
      let stopped := s.core.mat.mode = .threaded → ∀ t ∈ s.core.mt.threads, t.2.state = .stopped
      let before := modeLoad s.core.mat.mode s.core.power.powered
      let drains (k : LaneMode) : Prop := landed ∧ stopped ∧
        (before < modeLoad k (s.poweredIn k) → s.Affordable (modeLoad k (s.poweredIn k) - before))
      let switched (k : LaneMode) (t : State) : Prop :=
        t.core.mat.mode = k ∧ t.core.mat.phase = .none ∧ (k = .threaded → t.core.mt = ThreadsState.reset) ∧
          (s.core.mat.mode = .matrix → t.core.mat.wv = false ∧ t.core.mat.sk0 = false ∧ t.core.mat.sk1 = false ∧
            (s.core.Canonical → ∀ b r c, b < 2 → r < s.kmrows → c < 64 →
              t.core.vec.tileWord (tileMap s.core.vec.laneMap) false b r c =
                s.core.vec.tileWord (tileMap s.core.vec.laneMap) (s.core.mat.skewed b) b r c))
      (2 < mode.toNat → exec (.lmode mode) s = .next (s.takeTrap 2 (s.core.ir.setWidth 64))) ∧
      (mode.toNat ≤ 2 → s.core.mat.mode = m → ∃ t, exec (.lmode mode) s = .next t ∧ Retired s t ∧ FrameX 0 s t) ∧
      (mode.toNat ≤ 2 → s.core.mat.mode ≠ m → s.dev.service = .maquette → m ≠ .vector → exec (.lmode mode) s = .next (s.takeTrap 25 2)) ∧
      (mode.toNat ≤ 2 → s.core.mat.mode ≠ m → s.dev.service ≠ .maquette ∨ m = .vector → s.core.power.quietLoad = 0 →
        (∀ k, s.core.mat.phase ≠ .switching k) →
        let s1 := s.enteredQv.mapMat fun x => { x with phase := .draining m }
        (drains m → ∃ t, exec (.lmode mode) s = .next t ∧ switched m t ∧ Retired s t ∧ KeepsOthers 0 s t ∧
          t.core.power.modeCharge = modeCost m ∧ t.core.power.powered = s.poweredIn m) ∧
        (¬landed → exec (.lmode mode) s = .next s1.stall) ∧
        (landed → ¬stopped → exec (.lmode mode) s = .next (s1.takeTrap 25 1))) ∧
      (s.core.run = .halted → exec (.lmodeDrained s.core.id) s = .next s ∧ exec (.lmodeSwitchDone s.core.id) s = .next s) ∧
      (s.core.id < 2304 → s.core.run ≠ .halted → ∀ k,
        (s.core.mat.phase = .draining k → s.enabledInterrupt ≠ none → exec (.lmodeDrained s.core.id) s = .next s) ∧
        (s.core.mat.phase = .draining k → s.enabledInterrupt = none → drains k → ∃ t, exec (.lmodeDrained s.core.id) s = .next t ∧
          t.core.mat.phase = .switching k ∧ t.core.pc = s.core.pc ∧ KeepsOthers 0 s t) ∧
        (s.core.mat.phase = .switching k → ∃ t, exec (.lmodeSwitchDone s.core.id) s = .next t ∧ switched k t ∧
          Retired s t ∧ KeepsOthers 0 s t) ∧
        (s.core.mat.phase = .none → exec (.lmodeDrained s.core.id) s = .next s ∧ exec (.lmodeSwitchDone s.core.id) s = .next s))) ∧
  (∀ (s : State) (slot rs1 : BitVec 5) (wf : BitVec 2),
      let os := slot.toNat
      let m := s.core.mat
      let x := m.slot os
      let a := s.x rs1
      let misuse (code : Nat) : Host.Outcome State Fault Refusal := .next (s.takeTrap 50 (BitVec.ofNat 64 (16 * code + os)))
      let zeroed (t : State) : Prop := ∀ i, t.core.mat.store.get i =
        if 16384 * os ≤ i ∧ i < 16384 * os + 16384 then 0 else m.store.get i
      let others (t : State) : Prop := ∀ k, k < 8 → k ≠ os → t.core.mat.slot k = m.slot k
      (8 ≤ os → ∀ i ∈ [Instr.mclaim slot, .mclaimRx slot, .mrelease slot, .mslotld slot rs1, .mwloadGroup0 wf slot,
          .mwloadGroup1 wf slot], exec i s = .next (s.takeTrap 2 (s.core.ir.setWidth 64))) ∧
      (os < 8 → s.MatrixReady true → s.core.Canonical →
        (x ≠ .free → exec (.mclaim slot) s = misuse 2 ∧ exec (.mclaimRx slot) s = misuse 2) ∧
        (x = .free → s.core.power.quietLoad = 0 →
          ∀ p ∈ [(Instr.mclaim slot, SlotState.ready), (.mclaimRx slot, .fillingChain)],
            ∃ t, exec p.1 s = .next t ∧ t.core.mat.slot os = p.2 ∧ zeroed t ∧ others t ∧ t.core.mat.ts = .dirty ∧
              Retired s t ∧ KeepsOthers 0 s t) ∧
        (x = .free → exec (.mrelease slot) s = misuse 1 ∧ exec (.mslotld slot rs1) s = misuse 1) ∧
        (x ≠ .free → s.core.power.quietLoad = 0 →
          (x ≠ .fillingLoad → x ≠ .chainLanding → ∃ t, exec (.mrelease slot) s = .next t ∧ t.core.mat.slot os = .free ∧
            zeroed t ∧ others t ∧ t.core.mat.wv = (m.wv && !m.armedFrom os) ∧ Retired s t ∧ KeepsOthers 0 s t) ∧
          (x = .fillingLoad → exec (.mrelease slot) s = .next s.enteredQv.stall) ∧
          (x = .chainLanding → exec (.mrelease slot) s = .next s.enteredQv)) ∧
        (x ≠ .free → a.toNat % 128 ≠ 0 → exec (.mslotld slot rs1) s = .next (s.takeTrap 4 a)) ∧
        (x = .fillingLoad ∨ x = .ready ∧ 32 ≤ s.loadsInFlight → a.toNat % 128 = 0 →
          exec (.mslotld slot rs1) s = .next s.stall) ∧
        (x = .fillingChain ∨ x = .chainLanding → a.toNat % 128 = 0 → exec (.mslotld slot rs1) s = .next s) ∧
        (x = .ready → a.toNat % 128 = 0 → s.loadsInFlight < 32 → s.Plain → (∀ j < 2048, s.Usable (a + BitVec.ofNat 64 (8 * j)) 8) →
          ∃ t, exec (.mslotld slot rs1) s = .next t ∧ t.core.mat.slot os = .fillingLoad ∧ others t ∧ Retired s t ∧
            KeepsOthers 0 s t ∧ ∀ j < 2048, t.core.mat.store.read (16384 * os + 8 * j) 8 =
              s.readPA (a + BitVec.ofNat 64 (8 * j)).toNat 8)) ∧
      (os < 8 → s.MatrixReady false → s.core.Canonical → s.core.power.quietLoad = 0 →
        ∀ p ∈ [(Instr.mwloadGroup0 wf slot, wf.toNat), (.mwloadGroup1 wf slot, 4 + wf.toNat)], p.2 < 7 →
          (x = .free → exec p.1 s = misuse 1) ∧
          let y := if 5 ≤ p.2 then m.slot (os + 1) else .ready
          let named := x ≠ .free ∧ (5 ≤ p.2 → os % 2 = 0 ∧ y ≠ .free)
          (x ≠ .free → 5 ≤ p.2 → (os % 2 = 1 ∨ y = .free) → exec p.1 s = misuse 3) ∧
          (named → x = .fillingLoad ∨ y = .fillingLoad → exec p.1 s = .next s.enteredQv.stall) ∧
          (named → x ≠ .fillingLoad → y ≠ .fillingLoad → x ≠ .ready ∨ y ≠ .ready → exec p.1 s = .next s.enteredQv) ∧
          (x = .ready → (5 ≤ p.2 → os % 2 = 0) → y = .ready →
            ∃ t, exec p.1 s = .next t ∧ Retired s t ∧ KeepsOthers 0 s t ∧ t.core.mat.wv = true ∧ t.core.mat.wslot.toNat = os ∧
              t.core.mat.wfmt.toNat = p.2 ∧ t.core.mat.store = m.store ∧
              ∀ i, i < (if 5 ≤ p.2 then 32768 else 16384) → t.core.mat.armed.get i = m.store.get (16384 * os + i))) ∧
      (os < 8 → exec (.mwloadGroup1 3 slot) s = .next (s.takeTrap 2 (s.core.ir.setWidth 64))))

/-- The tile moves. `mtzero` makes a tile zero in both layouts; `mtdrain` puts it in vector layout with its words
unchanged; `mtmv` and `mtmvc` copy a row or a column into a vector register, `mvtm` and `mvtmc` a register into a row
or a column, and nothing else of the tile changes (R226, R242, R243). -/
def Obligations.TileMoves : Prop :=
  ∀ (s : State) (tile vr rs1 : BitVec 5),
    let b := tile.toNat
    let i := (s.x rs1).toNat
    let v := s.core.vec
    let tm := tileMap v.laneMap
    let sk := s.core.mat.skewed b
    let gg := s.groupGeometry
    let T (t : State) (r c : Nat) : Nat := t.core.vec.tileWord tm sk b r c
    s.MatrixReady false → s.core.power.quietLoad = 0 → s.core.Canonical → b < 2 →
      (∃ t, exec (.mtzero tile) s = .next t ∧ Retired s t ∧ KeepsOthers 0 s t ∧ t.core.mat = s.core.mat ∧
        ∀ r c, r < s.kmrows → c < 64 → t.core.vec.tileWord tm true b r c = 0 ∧ t.core.vec.tileWord tm false b r c = 0 ∧
          ∀ k, t.core.vec.tileWord tm k (1 - b) r c = v.tileWord tm k (1 - b) r c) ∧
      (∃ t, exec (.mtdrain tile) s = .next t ∧ Retired s t ∧ KeepsOthers 0 s t ∧ t.core.mat.skewed b = false ∧
        t.core.mat.skewed (1 - b) = s.core.mat.skewed (1 - b) ∧
        ∀ r c, r < s.kmrows → c < 64 → t.core.vec.tileWord tm false b r c = T s r c) ∧
      (s.matrixReg vr.toNat = true → s.isFull vr.toNat = true →
        (i < s.kmrows →
          (∃ t, exec (.mtmv vr tile rs1) s = .next t ∧ Retired s t ∧ KeepsOthers 0 s t ∧
            ∀ e < 64, t.core.vec.elem gg 32 vr.toNat e = T s i e) ∧
          (∃ t, exec (.mvtm tile vr rs1) s = .next t ∧ Retired s t ∧ KeepsOthers 0 s t ∧
            ∀ r c, r < s.kmrows → c < 64 → T t r c = if r = i then v.elem gg 32 vr.toNat c else T s r c)) ∧
        (i < 64 →
          (∃ t, exec (.mtmvc vr tile rs1) s = .next t ∧ Retired s t ∧ KeepsOthers 0 s t ∧
            ∀ e < s.kmrows, t.core.vec.elem gg 32 vr.toNat e = T s e i) ∧
          (∃ t, exec (.mvtmc tile vr rs1) s = .next t ∧ Retired s t ∧ KeepsOthers 0 s t ∧
            ∀ r c, r < s.kmrows → c < 64 → T t r c = if c = i then v.elem gg 32 vr.toNat r else T s r c))) ∧
      (s.matrixReg vr.toNat = false ∨ s.kmrows ≤ i → ∀ k ∈ [Instr.mtmv vr tile rs1, .mvtm tile vr rs1],
        exec k s = .next (s.takeTrap 2 (s.core.ir.setWidth 64))) ∧
      (s.matrixReg vr.toNat = false ∨ 64 ≤ i → ∀ k ∈ [Instr.mtmvc vr tile rs1, .mvtmc tile vr rs1],
        exec k s = .next (s.takeTrap 2 (s.core.ir.setWidth 64)))

/-- The matrix products. `mopak` adds to every tile word inside kmpred the steps from kmstep to DEPTH − 1 of A × B and
clears kmstep, `mopa` adds one step and leaves kmstep, and `mws` adds to each row from kmstep the product of its token
and the armed weights; INT8 wraps and every other format rounds each step's exact sum once. The tile is then in array
layout, and its words outside kmpred are unchanged (R230, R240, R241, R246).
That code 5 of cause 50 shows WSLOT is the model's choice (log entry 81). -/
def Obligations.MatrixProducts : Prop :=
  ∀ (s : State) (g : BitVec 1) (fm : BitVec 2) (tile vs1 vs2 : BitVec 5),
    let b := tile.toNat
    let v := s.core.vec
    let m := s.core.mat
    let tm := tileMap v.laneMap
    let gg := s.groupGeometry
    let rows := m.predRows.toNat
    let cols := m.predCols.toNat
    let depth := m.predDepth.toNat
    let lo := m.kmstep.toNat
    let T (r c : Nat) : Nat := v.tileWord tm (m.skewed b) b r c
    let after (t : State) (f : Nat → Nat → Nat) : Prop :=
      Retired s t ∧ KeepsOthers 0 s t ∧ t.core.mat.skewed b = true ∧
        ∀ r c, r < s.kmrows → c < 64 → t.core.vec.tileWord tm true b r c = if r < rows ∧ c < cols then f r c else T r c
    s.MatrixReady false → s.core.power.quietLoad = 0 → s.core.Canonical → b < 2 → s.core.stopAt = none →
      (∀ f, matFormat g fm = some f →
        let step (k r c acc t : Nat) : Nat := (stepWord f.fa.isInt s.vectorRounding acc ((List.range f.q).map fun j =>
          (f.fa.value (v.elem gg f.fa.width vs1.toNat (r * k + (f.q * t + j))),
            f.fb.value (v.elem gg f.fb.width vs2.toNat ((f.q * t + j) * 64 + c))))).1
        let groups (k : Nat) : List Nat := s.groupRegs vs1.toNat (rows * k) f.fa.width ++ s.groupRegs vs2.toNat (k * 64) f.fb.width
        let ready (k : Nat) : Prop := s.predOk false = true ∧ s.matrixReg vs1.toNat = true ∧ s.matrixReg vs2.toNat = true ∧
          (groups k).all s.matrixReg = true ∧ (groups k).all s.isFull = true
        (ready (f.q * depth) → lo < depth → ∃ t, exec (.mopak g fm tile vs1 vs2) s = .next t ∧ t.core.mat.kmstep = 0 ∧
          after t fun r c => ((List.range (depth - lo)).map (lo + ·)).foldl (step (f.q * depth) r c) (T r c)) ∧
        (ready f.q → ∃ t, exec (.mopa g fm tile vs1 vs2) s = .next t ∧ t.core.mat.kmstep = m.kmstep ∧
          after t fun r c => step f.q r c (T r c) 0)) ∧
      (∀ a, activationFormat g fm = some a → s.matrixReg vs1.toNat = true →
        let k := weightQ m.wfmt.toNat * depth
        (m.wv = false → exec (.mws g fm tile vs1) s = .next (s.takeTrap 50 (BitVec.ofNat 64 (64 + m.wslot.toNat)))) ∧
        (m.wv = true → weightMatches a m.wfmt.toNat = false →
          exec (.mws g fm tile vs1) s = .next (s.takeTrap 50 (BitVec.ofNat 64 (80 + m.wslot.toNat)))) ∧
        (m.wv = true → weightMatches a m.wfmt.toNat = true → s.predOk true = true → lo < rows →
          (s.groupRegs vs1.toNat (rows * k) a.width).all s.matrixReg = true →
          (s.groupRegs vs1.toNat (rows * k) a.width).all s.isFull = true →
          ∃ t, exec (.mws g fm tile vs1) s = .next t ∧ t.core.mat.kmstep = 0 ∧
            after t fun r c => if r < lo then T r c else (stepWord a.isInt s.vectorRounding (T r c) ((List.range k).map fun j =>
              (a.value (v.elem gg a.width vs1.toNat (r * k + j)), m.weight j c))).1)) ∧
      (matFormat g fm = none → ∀ i ∈ [Instr.mopak g fm tile vs1 vs2, .mopa g fm tile vs1 vs2],
        exec i s = .next (s.takeTrap 2 (s.core.ir.setWidth 64))) ∧
      (activationFormat g fm = none → exec (.mws g fm tile vs1) s = .next (s.takeTrap 2 (s.core.ir.setWidth 64)))

/-- `mchain` gives a status, and with 0 sends the tile's words, rounded to its format and zero outside kmpred, to the
slot of the target core, which then waits for them to land: 3 for a number that names no core or slot, 2 for a core
without a continuation of the caller's region, 1 for a continuation not running or a slot not expecting a chain.
That a slot where a chain is landing answers 1 too is the model's choice (log entry 35). SLOT_FILLED and CHAIN_LANDED
make a slot Ready where it was so filling, and a write of kmctl.TS sets the tile state (R234, R235, R248). -/
def Obligations.Chains : Prop :=
  ∀ (s : State) (fmt : BitVec 2) (rd rs1 rs2 : BitVec 5) (core slot : Nat) (value : BitVec 2),
    let c := (s.x rs1).toNat
    let os := (s.x rs2).toNat
    let m := s.core.mat
    let v := s.core.vec
    let f : Format := match fmt.toNat with | 0 => bf16 | 1 => fp16 | 2 => e4m3 | _ => e5m2
    let n := f.width / 8
    let st := s.chainStatus (s.x rs1) (s.x rs2)
    let lands (p : SlotState) (t : State) : Prop :=
      (t.coreOf core).mat.slot slot = (if (s.coreOf core).mat.slot slot = p then .ready else (s.coreOf core).mat.slot slot) ∧
        t.mem = s.mem ∧ t.dies = s.dies
    (2303 < c ∨ 7 < os → st = 3) ∧
    (¬(2303 < c ∨ 7 < os) → ∀ k g, (s.coreOf c).cont = some k → s.region = some g → st =
      if k.region ≠ g then 2 else if k.phase ≠ .running ∨ (s.coreOf c).mat.slot os ≠ .fillingChain then 1 else 0) ∧
    (s.MatrixReady false → s.core.power.quietLoad = 0 →
      ∀ p ∈ [(Instr.mchainTacc0 fmt rd rs1 rs2, 0), (.mchainTacc1 fmt rd rs1 rs2, 1)],
        (st ≠ 0 → ∃ t, exec p.1 s = .next t ∧ WritesX rd (BitVec.ofNat 64 st) s.enteredQv t) ∧
        (st = 0 → (s.coreOf c).mat.store.wf = true → ∃ t, exec p.1 s = .next t ∧ t.x rd = 0 ∧ Retired s t ∧ KeepsOthers rd s t ∧
          (t.coreOf c).mat.slot os = .chainLanding ∧
          ∀ k w, k < (if n = 2 then 128 else 256) → w < 64 → (k < m.predRows.toNat ∧ w < m.predCols.toNat → k < s.kmrows) →
            (t.coreOf c).mat.store.read (16384 * os + n * (64 * k + w)) n =
              if k < m.predRows.toNat ∧ w < m.predCols.toNat then
                (toFloat f .rne (fp32.value (v.tileWord (tileMap v.laneMap) (m.skewed p.2) p.2 k w))).1
              else 0)) ∧
    (core < 2304 → slot < 8 →
      (∃ t, exec (.slotFilled core slot) s = .next t ∧ lands .fillingLoad t) ∧
      (∃ t, exec (.chainLanded core slot) s = .next t ∧ lands .chainLanding t)) ∧
    (s.core.run ≠ .halted →
      (value.toNat < 2 → exec (.kmctlTsReset value) s = .next (s.mapMat (MatState.writeTs value.toNat))) ∧
      (2 ≤ value.toNat → exec (.kmctlTsSet value) s = .next (s.mapMat (MatState.writeTs value.toNat)))) ∧
    (s.core.run = .halted → exec (.kmctlTsReset value) s = .next s ∧ exec (.kmctlTsSet value) s = .next s)

/-! ### Micro-threads -/

/-- The control thread's instructions on micro-threads, in threaded mode: `mtbcast` starts the stopped ones below
x[rs2] at a block, which one fetch brings, and counts them; `mtwait` is an acquire and tells whether all are stopped once all are settled,
raises cause 29 where some are faulted, gives 2 after its deadline, and else waits; `mtqrd` takes the head of a queue
and `mtqwr` appends to one; `mtresume` and `mtkill` act on one micro-thread or on all, and `mtfault` tells one's record (R262 to
R268). The states of a micro-thread. A fetched block makes it Ready, and a fetch fault Faulted; a lane position issues
a micro-thread that may begin its word; a word that completes leaves it Ready at the next word, Stopped after the last
one or at `mtstop`, Fetching at the block it names, Blocked on its queue, or Faulted with its record; a blocked
transfer that can be made, a send or a receive, is made, a receive with acq being an acquire; and the token moves a
blocked send into the escape buffer (R253 to R258, R271, R277); a fatal error stops them with their core (R380). A word that ends
uses its block's buffer, which is then the last to be replaced (R254), and counts its conflicts apart from the control thread's
instruction (the model's choice: log entry 79). A fetch is served where a buffer is free for it once the older requests are counted,
or holds its block; it serves every micro-thread of one `mtbcast`, and a fault gives each the same record (R254, R263). A word's integer operation and its identity write the register
they name (R260, R272). That a transfer made leaves its micro-thread Executing until the word completes, that a stopped
one keeps its PC, and that the token's move completes the word are the model's choices (log entry 44), and so is a
micro-thread frozen from a save without IDLE until the return to user mode (log entry 71). -/
def Obligations.Microthreads : Prop :=
  (∀ (s : State) (rd rs1 rs2 : BitVec 5) (item : BitVec 2),
      let d := s.x rs1
      let q := d.toNat
      let M := s.threadCount
      let h := s.thread q
      let old := s.queueCount q
      let gives (n : Nat) (t : State) : Prop := t.x rd = (if rd = 0 then 0 else BitVec.ofNat 64 n) ∧ KeepsOthers rd s t ∧ Retired s t
      let illegal_ : Host.Outcome State Fault Refusal := .next (s.takeTrap 2 (s.core.ir.setWidth 64))
      let faulted := (s.core.mt.threads.filter fun t => t.2.state == .faulted).length
      let listed := (s.core.mt.threads.map (·.1)).eraseDups
      let resumes := [(Instr.mtresume rd rs1, false), (.mtresumeSkip rd rs1, true)]
      let resumed (skip : Bool) (h : Thread) : Thread :=
        let again := { Thread.stopped with state := .fetching, pc := h.pc, last := h.last, asked := s.core.clock }
        if skip = false ∨ h.fetchFault = true then again
        else if h.pc = h.last then { Thread.stopped with pc := h.pc } else { again with pc := h.pc + 4 }
      let started (u : Nat) : Bool := decide (u < (s.x rs2).toNat) && decide (u < M) && (s.thread u).state == .stopped
      (s.ThreadsReady →
        (q % 4 ≠ 0 → exec (.mtbcast rd rs1 rs2) s = .next (s.takeTrap 0 d)) ∧
        (q % 4 = 0 → ∃ t, exec (.mtbcast rd rs1 rs2) s = .next t ∧ gives ((List.range M).filter started).length t ∧
          ∀ u, t.thread u = if started u then
            { Thread.stopped with state := .fetching, pc := BitVec.ofNat 64 (q / 128 * 128), last := d, asked := s.core.clock,
                                  batch := some s.core.mt.batches }
              else s.thread u) ∧
        (s.allSettled = true →
          (faulted ≠ 0 → exec (.mtwait rd rs1) s = .next (s.invalidateData.takeTrap 29 (BitVec.ofNat 64 faulted))) ∧
          (faulted = 0 → ∃ t, exec (.mtwait rd rs1) s = .next t ∧ t.core.dcache = [] ∧
            gives (if s.core.mt.threads.all fun t => t.2.state == .stopped then 0 else 1) t)) ∧
        (s.allSettled = false → d ≠ 0 → q ≤ s.tick → ∃ t, exec (.mtwait rd rs1) s = .next t ∧ WritesX rd 2 s t) ∧
        (s.allSettled = false → d = 0 ∨ s.tick < q → exec (.mtwait rd rs1) s = .next s) ∧
        (2 * M + 1 < q → exec (.mtqrd rd rs1) s = illegal_) ∧
        (q ≤ 2 * M + 1 → old = 0 → exec (.mtqrd rd rs1) s = .next s) ∧
        (q < 2 * M → old ≠ 0 → s.core.mt.escape = none → s.core.Canonical → ∃ t, exec (.mtqrd rd rs1) s = .next t ∧
          gives (s.m (q / 2) (s.queueReg q)) t ∧ t.queueCount q = old - 1 ∧ t.core.dcache = [] ∧
          ∀ j, j + 1 < old → t.m (q / 2) (s.queueReg q + j) = s.m (q / 2) (s.queueReg q + j + 1)) ∧
        (∀ w ws, s.core.mt.escape = none →
          (q = 2 * M → s.core.mt.topPort = w :: ws → ∃ t, exec (.mtqrd rd rs1) s = .next t ∧ gives w.toNat t ∧ t.core.mt.topPort = ws) ∧
          (q = 2 * M + 1 → s.core.mt.bottomPort = w :: ws →
            ∃ t, exec (.mtqrd rd rs1) s = .next t ∧ gives w.toNat t ∧ t.core.mt.bottomPort = ws)) ∧
        (2 * M ≤ q → exec (.mtqwr rs1 rs2) s = illegal_) ∧
        (q < 2 * M → s.queueFull q = true → exec (.mtqwr rs1 rs2) s = .next s) ∧
        (q < 2 * M → s.queueFull q = false → s.core.Canonical → ∃ t, exec (.mtqwr rs1 rs2) s = .next t ∧ Retired s t ∧
          KeepsOthers 0 s t ∧ t.queueCount q = old + 1 ∧ t.m (q / 2) (s.queueReg q + old) = (s.x rs2).toNat) ∧
        (M ≤ q → d ≠ -1 → ∀ i ∈ [Instr.mtresume rd rs1, .mtresumeSkip rd rs1, .mtkill rd rs1], exec i s = illegal_) ∧
        (q < M → d ≠ -1 →
          (∀ p ∈ resumes, ∃ t, exec p.1 s = .next t ∧ gives (if h.state = .faulted then 1 else 0) t ∧
            ∀ u, t.thread u = if u = q ∧ h.state = .faulted then resumed p.2 h else s.thread u) ∧
          (h.state ≠ .executing → ∃ t, exec (.mtkill rd rs1) s = .next t ∧ gives (if h.state = .stopped then 0 else 1) t ∧
            ∀ u, t.thread u = if u = q ∧ h.state ≠ .stopped then { Thread.stopped with pc := h.pc } else s.thread u)) ∧
        (d = -1 →
          (∀ p ∈ resumes, ∃ t, exec p.1 s = .next t ∧ gives (listed.filter fun u => (s.thread u).state == .faulted).length t ∧
            ∀ u, t.thread u = if (s.thread u).state = .faulted then resumed p.2 (s.thread u) else s.thread u) ∧
          ((∀ u, (s.thread u).state ≠ .executing) → ∃ t, exec (.mtkill rd rs1) s = .next t ∧
            gives (listed.filter fun u => (s.thread u).state != .stopped).length t ∧
            ∀ u, t.thread u = if (s.thread u).state = .stopped then s.thread u else { Thread.stopped with pc := (s.thread u).pc })) ∧
        (M ≤ q → ¬(item = 3 ∧ q = M) → exec (.mtfault item rd rs1) s = illegal_) ∧
        (q < M ∨ item = 3 ∧ q = M → ∃ t, exec (.mtfault item rd rs1) s = .next t ∧ WritesX rd (match item.toNat with
          | 0 => BitVec.ofNat 64 (h.state.code + h.cause.toNat * 256 + (if h.inSend then 65536 else 0))
          | 1 => h.value
          | 2 => if h.fetchFault then BitVec.ofNat 64 (h.pc.toNat / 128 * 128) else h.pc
          | _ => match ((s.core.mt.threads.filter fun u => u.2.state == .faulted && decide (q ≤ u.1)).map (·.1)).min? with
            | some u => BitVec.ofNat 64 u
            | none => -1) s t)) ∧
      (s.core.vec.cfg.vlx = false → s.core.mat.mode ≠ .threaded →
        (∀ i ∈ [Instr.mtbcast rd rs1 rs2, .mtwait rd rs1], exec i s = .next (s.takeTrap 25 0)) ∧
        (q < M → ∃ t, exec (.mtfault item rd rs1) s = .next t ∧ WritesX rd (if item = 3 then -1 else 0) s t))) ∧
  (∀ (s s' : State) (t lane : Nat) (w : Word32), s.core.id < 2304 →
      let c := s.core.id
      let h := s.thread t
      let next (i : Instr) (f : State → Prop) : Prop := s.core.run ≠ .halted → ∃ u, exec i s = .next u ∧ f u
      let used := (s.useBuffer t).mapCore fun k => { k with raceSectors := [] }
      let advanced (g : Thread) : Thread := if g.pc = g.last then { Thread.stopped with pc := g.pc }
        else { g with state := .ready, pc := g.pc + 4, moved := false, inSend := false, age := 0 }
      let faulted (g : Thread) (cause : Nat) (v : Word) (fetching : Bool) : Thread :=
        { g with state := .faulted, cause := BitVec.ofNat 8 cause, value := v, fetchFault := fetching, inSend := false,
                 moved := false, line := if fetching then none else g.line, batch := none }
      let group := s'.core.mt.fetchGroup t
      let ended (u : State) : Prop := u.core.mt.buffers = s'.core.mt.buffers ∧ u.core.krace = s'.core.krace ∧
        u.core.raceSectors = s.core.raceSectors
      (∀ b, (s.core.mt.buffers.find? fun b => some b.line = h.line) = some b →
        used.core.mt.buffers = s.core.mt.buffers.erase b ++ [b]) ∧
      (s.core.mat.mode ≠ .threaded ∨ s.core.run = .halted →
        ∀ i ∈ [Instr.blockFetch c t, .mtIssue c lane, .mtWordComplete c t, .mtUnblock c t, .escapeMove c],
          exec i s = .next s) ∧
      (s.core.mat.mode = .threaded →
        (s.core.mt.frozen = true → ∀ i ∈ [Instr.blockFetch c t, .mtIssue c lane, .mtUnblock c t, .escapeMove c],
          exec i s = .next s) ∧
        (s.core.mt.freeBuffers ≤ s.olderFetches t → s.blockPresent t = false → exec (.blockFetch c t) s = .next s) ∧
        (h.state = .fetching → h.line = none → s.core.mt.frozen = false →
          s.olderFetches t < s.core.mt.freeBuffers ∨ s.blockPresent t = true →
          (fetchBlock t s = .ok true s' → next (.blockFetch c t) fun u => u = s' ∧
            ∀ v, v = t ∨ v ∈ s.core.mt.fetchGroup t → (s.thread v).state = .fetching →
              (s'.thread v).state = .ready ∧ (s'.thread v).line = (s'.thread t).line) ∧
          (∀ cause v, fetchBlock t s = .error (.trap cause v) s' → next (.blockFetch c t) fun u =>
            ∀ x, u.thread x = if x ∈ group then
              faulted (s'.thread x) cause (BitVec.ofNat 64 ((s'.thread x).pc.toNat / 128 * 128)) true else s'.thread x) ∧
          t ∈ s.core.mt.fetchGroup t ∧ ∀ v, v ∈ s.core.mt.fetchGroup t ↔ v = t ∨ h.batch ≠ none ∧
            ∃ g, (v, g) ∈ s.core.mt.threads ∧ g.batch = h.batch ∧ g.needsBlock = true) ∧
        (lane < s.lanes → (∃ k, k < 256 / s.nreg ∧ s.canIssue (k * s.lanes + lane) = true) → next (.mtIssue c lane) fun u =>
          ∃ k, k < 256 / s.nreg ∧ s.canIssue (k * s.lanes + lane) = true ∧
            u.thread (k * s.lanes + lane) = { s.thread (k * s.lanes + lane) with state := .executing, moved := false } ∧
            ∀ v, v ≠ k * s.lanes + lane → u.thread v = s.thread v) ∧
        ((∀ k, s.canIssue (k * s.lanes + lane) = false) → exec (.mtIssue c lane) s = .next s) ∧
        (h.state ≠ .executing → exec (.mtWordComplete c t) s = .next s) ∧
        (h.state = .executing → h.moved = false → used.threadWord t = some w →
          (runWord t w used = .ok .next s' → next (.mtWordComplete c t) fun u => u.thread t = advanced (s'.thread t) ∧ ended u) ∧
          (runWord t w used = .ok .stop s' → next (.mtWordComplete c t) fun u =>
            u.thread t = { Thread.stopped with pc := (s'.thread t).pc } ∧ ended u) ∧
          (∀ d, runWord t w used = .ok (.jump d) s' → next (.mtWordComplete c t) fun u =>
            u.thread t = { Thread.stopped with
              state := .fetching, pc := BitVec.ofNat 64 (d.toNat / 128 * 128), last := d, asked := s'.core.clock } ∧ ended u) ∧
          (∀ b, runWord t w used = .ok (.blocked b) s' → next (.mtWordComplete c t) fun u => (u.thread t).state = .blocked ∧
            (u.thread t).inSend = b ∧ (u.thread t).age = 0 ∧ (u.thread t).pc = (s'.thread t).pc ∧ ended u) ∧
          (∀ cause v, runWord t w used = .error (.trap cause v) s' → next (.mtWordComplete c t) fun u =>
            u.thread t = faulted (s'.thread t) cause v false ∧ ended u)) ∧
        (h.state ≠ .blocked → exec (.mtUnblock c t) s = .next s) ∧
        (∀ q src, h.state = .blocked → s.core.mt.frozen = false → s.blockedOn t = some (true, q, src) →
          (s.queueFull q = true → exec (.mtUnblock c t) s = .next s) ∧
          (s.queueFull q = false → next (.mtUnblock c t) fun u => (u.thread t).state = .executing ∧ (u.thread t).moved = true ∧
            u.queueCount q = s.queueCount q + 1)) ∧
        (∀ q r, h.state = .blocked → s.core.mt.frozen = false → s.blockedOn t = some (false, q, r) →
          (s.queueCount q = 0 → exec (.mtUnblock c t) s = .next s) ∧
          (s.queueCount q ≠ 0 → t < s.threadCount → s.core.Canonical → next (.mtUnblock c t) fun u =>
            (u.thread t).state = .executing ∧ (u.thread t).moved = true ∧ u.m t r = s.m t (s.queueReg q) ∧
              (s.core.mt.escape = none → u.queueCount q = s.queueCount q - 1) ∧
              (s.blockedAcquires t = true → u.core.dcache = []))) ∧
        (s.core.mt.escape ≠ none ∨ s.escapee = none → exec (.escapeMove c) s = .next s) ∧
        (∀ q src, s.core.mt.escape = none → s.core.mt.frozen = false → s.escapee = some t → s.blockedOn t = some (true, q, src) →
          next (.escapeMove c) fun u => u.core.mt.escape = some (q, BitVec.ofNat 64 (s.m t src)) ∧ u.thread t = advanced h)) ∧
      (w = 0 → runWord t w s = .error (.trap 48 0) s) ∧
      (w ≠ 0 → s.blockOp w = none → runWord t w s = .error (.trap 2 (w.setWidth 64)) s) ∧
      (∀ op d a b, s.blockOp w = some (.int op d a (.vec b)) → w ≠ 0 →
        runWord t w s = .ok .next ((s.setM t d (op.eval s.sew (s.m t a % 2 ^ s.sew) (s.m t b % 2 ^ s.sew) (s.m t d % 2 ^ s.sew))).raiseVector 0)) ∧
      (∀ d, s.blockOp w = some (.ident 0 d) → w ≠ 0 → runWord t w s = .ok .next ((s.setM t d t).raiseVector 0)))

/-! ### Copies -/

/-- The instructions on copies. `cpissue` queues a copy in the lowest free entry and gives its number, and at the head of qc the copy
takes the engines that are permitted then, those of the effective CPMASK (R308); it gives −1 where none
is free, −2 where no engine of the die is in the effective CPMASK, −3 where the peer's port is out of service. `cpwait` of one entry waits
until it is settled, raises cause 28 or 49 where a promise was missed or a fault is unobserved, and else gives its
status and frees it; of all ones it goes through the entries in order, waits at the first that is not settled, raises
the cause of the first that has one with those below it freed, and else gives how many it freed. `cpsusp`, `cpcancel`
and `cpresm` ask one entry, or every one, to stop or to go on, and give its state, or how many states changed;
`cpcancel` turns a stop towards Cancelled, and `cpsusp` asks for one towards Suspended. `cpstat` gives the item it
names. `sleeptil` gives the time once it has come (R316, R317, R322 to R327). That `sleeptil` runs again until a flag of
its own notes the wake is the model's choice (log entry 40), and so is that a resumed copy joins qc where qc is full (log entry
89). -/
def Obligations.CopyInstructions : Prop :=
  ∀ (s : State) (rd rs1 rs2 : BitVec 5) (item : BitVec 10),
    let v := s.x rs1
    let n := v.toNat
    let e := s.core.copy n
    let shape := s.core.vec.kcpshape
    let port := field shape 0 5
    let trap2 : Host.Outcome State Fault Refusal := .next (s.takeTrap 2 (s.core.ir.setWidth 64))
    let gives (x : Word) (t : State) : Prop := t.x rd = (if rd = 0 then 0 else x) ∧ KeepsOthers rd s t ∧ Retired s t
    let engines := (List.range 4).filter fun e => s.enginesOf.testBit (4 * (s.core.id / 96) + e)
    let up := s.dev.ports[port]?.any (·.inService)
    let queued (k : CopyKind) (old : CopyEntry) : CopyEntry := { CopyEntry.empty old.gen with
      state := .queued, pc := s.core.pc, lt := bit shape 7, kind := k, shape := shape, src := s.x rs2, dst := v, satp := s.core.csr.satp
      priv := s.core.priv, sum := bit s.core.csr.mstatus 18, mxr := bit s.core.csr.mstatus 19, advanced := old.advanced, owner := s.region }
    let busy (j : Nat) : Prop := (s.core.copy j).state ∈ [.queued, .running, .stopping]
    let final (j : Nat) : Prop := (s.core.copy j).state ∈ [.done, .faulted, .cancelled]
    let missed (j : Nat) : Prop := (s.core.copy j).state ≠ .suspended ∧ (s.core.copy j).lt = true ∧ (s.core.copy j).late = true
    let unseen (j : Nat) : Prop := (s.core.copy j).state = .faulted ∧ (s.core.copy j).obs = false
    let freed (m : Nat) (t : State) : Prop := ∀ j, j < m → (final j → (t.core.copy j).state = .free) ∧
      (¬final j → t.core.copy j = s.core.copy j)
    let commands : List (Instr × (CopyState → CopyState)) := [
      (.cpsusp rd rs1, fun x => match x with | .queued | .running => .stopping | x => x),
      (.cpcancel rd rs1, fun x => match x with | .queued | .running | .suspended => .stopping | x => x),
      (.cpresm rd rs1, fun x => match x with | .suspended => .queued | x => x)]
    let named (j : Nat) : Prop := j < 64 ∧ (j = n ∨ v = -1)
    (∀ p ∈ [(Instr.cpissue rd rs1 rs2, CopyKind.local), (.cpissuePut rd rs1 rs2, .put), (.cpissueGet rd rs1 rs2, .get)],
      (field shape 40 24 = 0 ∨ field shape 28 12 = 0 ∨ p.2 ≠ .local ∧ 17 < port → exec p.1 s = trap2) ∧
      (field shape 40 24 ≠ 0 → field shape 28 12 ≠ 0 → (p.2 ≠ .local → port ≤ 17) →
        ((∀ k < 64, (s.core.copy k).state ≠ .free) → ∃ t, exec p.1 s = .next t ∧ WritesX rd (-1) s t) ∧
        (∀ k < 64, (s.core.copy k).state = .free → (∀ j < k, (s.core.copy j).state ≠ .free) →
          (engines = [] → ∃ t, exec p.1 s = .next t ∧ WritesX rd (-2) s t) ∧
          (engines ≠ [] → p.2 ≠ .local → up = false → ∃ t, exec p.1 s = .next t ∧ WritesX rd (-3) s t) ∧
          (engines ≠ [] → (p.2 ≠ .local → up = true) →
            (16 ≤ s.core.qc.length → exec p.1 s = .next s) ∧
            (s.core.qc.length < 16 → ∃ t, exec p.1 s = .next t ∧ gives (BitVec.ofNat 64 k) t ∧ t.core.qc = s.core.qc ++ [k] ∧
              t.core.headEngines = (if s.core.qc = [] then engines else s.core.headEngines) ∧
              t.core.copy k = queued p.2 (s.core.copy k) ∧ ∀ j < 64, j ≠ k → t.core.copy j = s.core.copy j))))) ∧
    (64 ≤ n → v ≠ -1 → ∀ i ∈ [Instr.cpwait rd rs1, .cpsusp rd rs1, .cpresm rd rs1, .cpcancel rd rs1],
      exec i s = trap2) ∧
    (64 ≤ n ∨ 6 < item.toNat → exec (.cpstat rd rs1 item) s = trap2) ∧
    (n < 64 →
      (busy n → exec (.cpwait rd rs1) s = .next s) ∧
      (e.state = .suspended → ∃ t, exec (.cpwait rd rs1) s = .next t ∧ WritesX rd 4 s t) ∧
      (e.state ∈ [.free, .done, .faulted, .cancelled] →
        (e.lt = true → e.late = true →
          exec (.cpwait rd rs1) s = .next ((s.mapCopy n fun k => { k with lt := false }).takeTrap 28 v)) ∧
        ((e.lt && e.late) = false → e.state = .faulted → e.obs = false →
          exec (.cpwait rd rs1) s = .next ((s.mapCopy n fun k => { k with obs := true }).takeTrap 49 v)) ∧
        ((e.lt && e.late) = false → (e.state = .faulted → e.obs = true) → ∃ t, exec (.cpwait rd rs1) s = .next t ∧
          gives (match e.state with | .done => 0 | .cancelled => 1 | .faulted => 2 | _ => 3) t ∧ t.core.dcache = [] ∧
          (t.core.copy n).state = .free))) ∧
    (v = -1 →
      (∀ m < 64, busy m → (∀ j < m, ¬busy j ∧ ¬missed j ∧ ¬unseen j) → exec (.cpwait rd rs1) s = .next s) ∧
      (∀ m < 64, (∀ j < m, ¬busy j ∧ ¬missed j ∧ ¬unseen j) → ¬busy m →
        (missed m → ∃ t : State, exec (.cpwait rd rs1) s = .next (t.takeTrap 28 (BitVec.ofNat 64 m)) ∧ freed m t ∧
          t.core.copy m = { s.core.copy m with lt := false } ∧ (∀ j < 64, m < j → t.core.copy j = s.core.copy j) ∧
          t.core.pc = s.core.pc ∧ t.core.regs = s.core.regs ∧ SameMemory s t) ∧
        (¬missed m → unseen m → ∃ t : State, exec (.cpwait rd rs1) s = .next (t.takeTrap 49 (BitVec.ofNat 64 m)) ∧ freed m t ∧
          t.core.copy m = { s.core.copy m with obs := true } ∧ (∀ j < 64, m < j → t.core.copy j = s.core.copy j) ∧
          t.core.pc = s.core.pc ∧ t.core.regs = s.core.regs ∧ SameMemory s t)) ∧
      ((∀ j < 64, ¬busy j ∧ ¬missed j ∧ ¬unseen j) → ∃ t, exec (.cpwait rd rs1) s = .next t ∧ freed 64 t ∧
        gives (BitVec.ofNat 64 ((List.range 64).filter fun j => (s.core.copy j).state.isFinal).length) t)) ∧
    (∀ p ∈ commands,
      (n < 64 → ∃ t, exec p.1 s = .next t ∧ gives (BitVec.ofNat 64 (p.2 e.state).code) t ∧
        (t.core.copy n).state = p.2 e.state ∧ ∀ j < 64, j ≠ n → t.core.copy j = s.core.copy j) ∧
      (v = -1 → ∃ t, exec p.1 s = .next t ∧ (∀ j < 64, (t.core.copy j).state = p.2 (s.core.copy j).state) ∧
        gives (BitVec.ofNat 64 ((List.range 64).filter fun j =>
          p.2 (s.core.copy j).state != (s.core.copy j).state).length) t)) ∧
    (∀ t, n < 64 ∨ v = -1 → exec (.cpcancel rd rs1) s = .next t → ∀ j, named j →
      (s.core.copy j).state ∈ [.queued, .running, .stopping, .suspended] → (t.core.copy j).toCancelled = true) ∧
    (∀ t, n < 64 ∨ v = -1 → exec (.cpsusp rd rs1) s = .next t → ∀ j, named j →
      (s.core.copy j).state ∈ [.queued, .running] → (t.core.copy j).toCancelled = false ∧ (t.core.copy j).bySave = false) ∧
    (∀ t, n < 64 → exec (.cpresm rd rs1) s = .next t → e.state = .suspended → t.core.qc = s.core.qc ++ [n]) ∧
    (∀ t, v = -1 → exec (.cpresm rd rs1) s = .next t →
      t.core.qc = s.core.qc ++ (List.range 64).filter fun j => (s.core.copy j).state == .suspended) ∧
    (n < 64 → ∀ p ∈ [(0, BitVec.ofNat 64 e.word), (1, BitVec.ofNat 64 e.promise), (2, BitVec.ofNat 64 e.done), (3, e.pc),
          (4, e.faddr), (5, BitVec.ofNat 64 e.nprom), (6, BitVec.ofNat 64 e.tfinal)],
        ∃ t, exec (.cpstat rd rs1 (BitVec.ofNat 10 p.1)) s = .next t ∧ gives p.2 t ∧
          (p.1 = 0 → e.state = .faulted → (t.core.copy n).obs = true ∧ t.core.dcache = [])) ∧
    (s.tick < n → s.core.sleep ≠ some true → exec (.sleeptil rd rs1) s =
      .next (s.mapCore fun c => { c with sleep := some (c.sleep.getD false) })) ∧
    (n ≤ s.tick ∨ s.core.sleep = some true → ∃ t, exec (.sleeptil rd rs1) s = .next t ∧ WritesX rd (BitVec.ofNat 64 s.tick) s t)

/-- The steps of a copy on a core. The head of qc is accepted by the engine chosen for it among those permitted as it got there, with
the promise of R313, and the next one gets to the head; an
accepted copy begins; a copy of at most one chunk, with physical addresses and nothing in the way, moves its bytes and
is Done with its generation advanced; one whose next byte cannot be read is Faulted with the cause and the address, and
one that a peer refuses is Faulted; a stopping one becomes Suspended without a promise, or Cancelled; and one that
is not final as the station tick after its promise ends has missed that: it is marked late, once for each promise, at the tick
that comes, with interrupt 17 pending where it is enabled and a sleeping core woken (R308 to R318, R326). A fatal error stops the
copies with their core (R380). That the fault of the read is the one recorded where the write of the same byte fails too is the
model's choice (log entry 89). -/
def Obligations.CopySteps : Prop :=
  ∀ (s : State) (n : Nat), s.core.id < 2304 → n < 64 →
    let c := s.core.id
    let e := s.core.copy n
    let at_ (t : State) : CopyEntry := t.core.copy n
    let next (i : Instr) (f : State → Prop) : Prop := s.core.run ≠ .halted →
      ∃ t, exec i s = .next t ∧ t.core.regs = s.core.regs ∧ t.core.pc = s.core.pc ∧ f t
    let told (t : State) : Prop :=
      (bit (s.core.csr.mie &&& s.core.csr.mideleg) 17 = true → bit t.core.csr.mip 17 = true) ∧
        (s.core.sleep ≠ none → t.core.sleep = some true)
    let spaced := ∀ t, e.advanced = some t → t + 40 ≤ s.tick
    let terms (peer host : Bool) : Nat × Nat := if peer then (150, 8000) else if host then (50, 6000) else (800, 2000)
    let promise (k : Nat) : Nat :=
      let a := terms (e.kind == .get) (s.copyHost { e with engine := k } .load e.src)
      let b := terms (e.kind == .put) (s.copyHost { e with engine := k } .store e.dst)
      max s.tick (s.horizon (dieOf c) k) + max a.2 b.2 + (e.total - e.done + min a.1 b.1 - 1) / min a.1 b.1 + 4 * e.rows
    let misses (now : Nat) : Prop := e.accepted = true ∧ e.state ∈ [.queued, .running, .stopping] ∧ e.promise ≠ 0 ∧
      e.promise + 1 < now ∧ e.missed = false
    let late : CopyEntry := { e with late := true, missed := true }
    (s.core.run = .halted → ∀ i ∈ [Instr.copyAccept c, .copyBegin c n, .copyDone c n 1, .copyFault c n, .copyStop c n 0,
      .promiseMiss c n], exec i s = .next s) ∧
    (s.core.qc = [] ∨ s.headChoices = [] → exec (.copyAccept c) s = .next s) ∧
    (∀ k, s.chooseEngine = some k → k ∈ s.headChoices ∧ ∀ j ∈ s.headChoices,
      s.horizon (dieOf c) k < s.horizon (dieOf c) j ∨ s.horizon (dieOf c) k = s.horizon (dieOf c) j ∧
        (s.core.headEngines.Pairwise (· < ·) → k ≤ j)) ∧
    (∀ k rest, s.core.qc = n :: rest → s.chooseEngine = some k →
      let held := (s.engineItems (dieOf c) k).filter (s.engineHolds k)
      let places := (held.filter fun i => ((s.coreOf i.core).copy i.entry).occupies).length
      (128 ≤ places → exec (.copyAccept c) s = .next s) ∧
      (places < 128 → next (.copyAccept c) fun t => t.core.qc = rest ∧
        t.core.headEngines = (if rest = [] then [] else s.permittedEngines) ∧ (at_ t).accepted = true ∧ (at_ t).engine = k ∧
        (at_ t).promise = promise k ∧ (at_ t).nprom = min (2 ^ 28 - 1) (e.nprom + 1) ∧ (at_ t).missed = false ∧
        (at_ t).state = e.state ∧ SameMemory s t)) ∧
    (e.state = .queued → e.accepted = true → next (.copyBegin c n) fun t =>
      at_ t = { e with state := .running, begun := true } ∧ SameMemory s t) ∧
    (e.state ≠ .queued ∨ e.accepted = false → exec (.copyBegin c n) s = .next s) ∧
    (e.moving = false → e.lost = false → exec (.copyFault c n) s = .next s ∧ exec (.copyDone c n 1) s = .next s) ∧
    (e.moving = true → e.lost = false → e.done = 0 → 0 < e.total → e.total ≤ 4096 → spaced → e.kind = .local →
      e.priv = .machine → s.Plain → s.Inv →
      (∀ k < e.total, s.Usable (e.srcAt k) 1 ∧ s.Usable (e.dstAt k) 1) →
      (∀ j k, j < e.total → k < e.total → Apart (e.srcAt j).toNat 1 (e.dstAt k).toNat 1 ∧
        (j ≠ k → Apart (e.dstAt j).toNat 1 (e.dstAt k).toNat 1)) →
      next (.copyDone c n 1) fun t => (at_ t).state = .done ∧ (at_ t).done = e.total ∧ (at_ t).gen = e.gen + 1 ∧
        (at_ t).tfinal = s.tick ∧ (∀ k < e.total, t.byteAt (e.dstAt k).toNat = s.byteAt (e.srcAt k).toNat) ∧
        ∀ a, (∀ k < e.total, Apart a 1 (e.dstAt k).toNat 1) → t.byteAt a = s.byteAt a) ∧
    (∀ x, e.moving = true → e.lost = false → e.kind = .local → e.done < e.total → spaced →
      s.resolve (e.space c) .load (e.srcAt e.done) = .error x →
      next (.copyFault c n) fun t => (at_ t).state = .faulted ∧ (at_ t).fcause = BitVec.ofNat 8 (x.cause .load) ∧
        (at_ t).faddr = e.srcAt e.done ∧ (at_ t).done = e.done ∧ (at_ t).gen = e.gen + 1 ∧ (at_ t).tfinal = s.tick ∧ told t ∧
        SameMemory s t) ∧
    (e.moving = true → e.lost = false → e.kind ≠ .local → e.done < e.total → spaced →
      s.core.run ≠ .halted → ∃ t, exec (.copyFault c n) s = .next t ∧ (at_ t).state = .faulted) ∧
    (e.state ≠ .stopping → exec (.copyStop c n 0) s = .next s) ∧
    (e.state = .stopping → e.lost = false → spaced → next (.copyStop c n 0) fun t => (at_ t).gen = e.gen + 1 ∧
      (at_ t).done = e.done ∧ (at_ t).state = (if e.toCancelled then .cancelled else .suspended) ∧
      (e.toCancelled = true → (at_ t).tfinal = s.tick) ∧
      (e.toCancelled = false → (at_ t).promise = 0 ∧ (at_ t).accepted = false ∧ (at_ t).auto = e.bySave) ∧ SameMemory s t) ∧
    (e.state = .stopping → e.lost = false → ¬spaced → next (.copyStop c n 0) fun t => at_ t = e ∧ SameMemory s t) ∧
    (misses s.tick → next (.promiseMiss c n) fun t => at_ t = late ∧ told t ∧ SameMemory s t) ∧
    (¬misses s.tick → exec (.promiseMiss c n) s = .next s) ∧
    (misses (s.tick + 1) → next .tokenRefill fun t => at_ t = late ∧ told t) ∧
    (¬misses (s.tick + 1) → next .tokenRefill fun t => at_ t = e)

/-! ### Contexts, faults and redirection -/

/-- `ctxsave` in user mode raises cause 2, and with the siding already held gives −1. In vector mode with no copy in
progress it writes the image (the integer registers, sepc, the strip and the lengths at their places), leaves the siding
held and gives how many bytes it wrote; with IDLE the core is then idle, and its copies are free. `ctxload` restores the
registers, the lanes, the copies and the program counter from the image, in user mode under the region's satp, with nothing of a
load that a save kept (R335 to R338, R341, R348 to R350). A core whose own domain is quiescing stops at a `ctxload` instead.
`kfail` names the caller's region or, privileged, a live one; the region is then quiescing, and the
core stops where that fault domain holds the region it is bound in, and else goes on. `trapset` sets the redirect block and mask, reads the handler where the mask is not
empty, and gives the old mask; `trapset.ret` continues at the program counter that the block saves. A storage error is
taken as cause 52 with its word, and an enabled interrupt at once; what waits may also stop the next instruction after
the groups given; in user mode a core whose domain is quiescing stops in place of either, with sepc, scause and stval as they were
(R331, R333, R344, R345, R351, R352, R376). The model's choices: that a stop comes after a number of
groups that the event names (log entry 9), what is an interruptible point (log entry 51), that `kfail` with rs2 = 0 and no
continuation raises cause 2 (log entry 63), and that a save without IDLE keeps the copies' entries and leaves the
micro-threads frozen (log entry 71).
That a save without IDLE counts for item 13 of `cinfo` too is its reading (log entry 45). -/
def Obligations.ContextsAndRedirects : Prop :=
  (∀ (s : State) (rd : BitVec 5) (flags : BitVec 3),
      let d := s.core.siding
      let img := d.image
      let word (m : ByteMap) (i : Nat) : Nat := m.read (0x1000 + 8 * i) 8
      let trap2 : Host.Outcome State Fault Refusal := .next (s.takeTrap 2 (s.core.ir.setWidth 64))
      let powered := if img.read 11 1 % 8 = 0 then max 1 (min (VCfg.ofWord (img.item 78)).g s.lanes) else s.lanes
      let mode := LaneMode.ofCode (img.read 11 1 % 8)
      let before := s.core.power.modeCharge + 60 * (s.core.power.powered - 1)
      let record := (s.core.cont.map (·.record)).getD 0
      let shadows := d.state == .shadow &&
        s.core.cont.any fun k => d.record == k.record && d.holder.any fun h => h.region == k.region
      let whole := flags.getLsbD 1 || !shadows
      let entry (i : Nat) : Word := BitVec.ofNat 64 (img.read (0x2000 + 64 * i) 8)
      (s.core.priv = .user → exec (.ctxsave rd flags) s = trap2 ∧ exec .ctxload s = trap2) ∧
      (s.core.priv ≠ .user → d.state = .held → ∃ t, exec (.ctxsave rd flags) s = .next t ∧ WritesX rd (-1) s t) ∧
      (s.core.priv ≠ .user → d.state ≠ .held → s.core.mat.mode = .vector → s.NoneExecuting →
        (∀ n < 64, (s.core.copy n).state ∉ [.queued, .running, .stopping]) → s.mustStop s.core.id = false → img.wf = true →
        ∃ t, exec (.ctxsave rd flags) s = .next t ∧ t.core.siding.state = .held ∧ t.core.siding.record = record ∧
          (∀ k < 31, word t.core.siding.image k = if flags.getLsbD 2 ∧ k = 1 then s.core.csr.sscratch.toNat
            else (s.x (BitVec.ofNat 5 (k + 1))).toNat) ∧
          (∀ k < 32, word t.core.siding.image (31 + k) = (s.f (BitVec.ofNat 5 k)).toNat) ∧
          word t.core.siding.image 64 = s.core.csr.sepc.toNat ∧ word t.core.siding.image 67 = s.vstart ∧
          word t.core.siding.image 71 = s.core.vec.kstripbase.toNat ∧ word t.core.siding.image 77 = s.vl ∧
          t.core.vec.kvdirty = 0 ∧ t.core.reservation = none ∧ t.core.mt.frozen = true ∧
          (flags.getLsbD 0 = false → KeepsOthers rd s t ∧ Retired s t ∧ t.core.copies = s.core.copies ∧
            (t.core.cont = s.core.cont.map fun k => { k with saves := k.saves + 1 }) ∧
            t.x rd = if rd = 0 then 0 else BitVec.ofNat 64 (12288 +
              (if whole ∨ s.core.mat.ts = .dirty then 131072 else 0) +
              ((List.range s.nreg).filter fun r => whole || s.core.vec.kvdirty.getLsbD r).length *
                (s.lanes * (2048 / s.nreg)))) ∧
          (flags.getLsbD 0 = true → t.core.run = .idle ∧ t.core.cont = none ∧ ∀ n < 64, (t.core.copy n).state = .free)) ∧
      (s.core.priv ≠ .user → s.mustStop s.core.id = true → ∃ t, exec .ctxload s = .next t ∧ t.core.run = .idle ∧
        t.core.cont = none ∧ t.core.regs = s.core.regs) ∧
      (s.core.priv ≠ .user → s.mustStop s.core.id = false → d.state ≠ .held → exec .ctxload s = trap2) ∧
      (s.core.priv ≠ .user → d.state = .held → s.mustStop s.core.id = false → d.bad = true →
        exec .ctxload s = .next (s.takeTrap 5 0)) ∧
      (s.core.priv ≠ .user → d.state = .held → s.mustStop s.core.id = false → d.bad = false →
        (before < modeLoad mode powered → s.Affordable (modeLoad mode powered - before)) →
        ∃ t, exec .ctxload s = .next t ∧ t.core.priv = .user ∧ t.core.pc.toNat = word img 64 ∧ t.core.siding.state = .shadow ∧
          t.core.power.heldSince = none ∧ t.core.vec.laneMap = s.core.vec.laneMap ∧ t.core.power.modeCharge = modeCost mode ∧ t.core.power.powered = powered ∧
          (∀ k < 31, (t.x (BitVec.ofNat 5 (k + 1))).toNat = word img k) ∧
          (∀ k < 32, (t.f (BitVec.ofNat 5 k)).toNat = word img (31 + k) % 2 ^ 32) ∧ t.vstart = word img 67 % 2 ^ 17 ∧
          (BitVec.ofNat 128 (img.read 16 16) = s.core.vec.laneMap → img.wf = true → t.vl = word img 77 % 2 ^ 17 ∧
            ∀ l i, s.core.vec.laneMap.getLsbD l = true → i < 2048 →
              (t.core.vec.slice l).get i = img.get (0x40000 + 2048 * l + i)) ∧
          t.core.csr.satp = s.regionSatp ((d.holder.map (·.region)).getD (img.read 8 2)) ∧
          (∀ i < 64, field (entry i) 0 3 = 4 → (t.core.copy i).state = if bit (entry i) 7 then .queued else .suspended) ∧
          t.core.mt.frozen = false ∧ t.core.csr.trapDepth = 0 ∧ t.core.reservation = none ∧ t.core.dcache = [])) ∧
  (∀ (s s1 : State) (rd rs1 rs2 : BitVec 5) (v groups : Nat),
      let trap2 : Host.Outcome State Fault Refusal := .next (s.takeTrap 2 (s.core.ir.setWidth 64))
      let c := s.core.id
      let b := s.x rs1
      let m := s.x rs2
      let block := s.core.redirect.block
      let legal := b.toNat % 32 = 0 ∧ ∀ i < 64, i ∉ [26, 27, 28, 29, 31, 49, 50, 53] → bit m i = false
      let placed := s.Inv ∧ s.mem.discards = [] ∧ s.kregbase.toNat % 2 ^ 20 = 0 ∧ (∀ g ∈ s.live, g < 4096) ∧
        ∀ q ∈ s.cores, ∀ k, q.siding.holder = some k ∨ q.cont = some k → k.region < 4096
      let stops := s.core.run = .running ∧ s.interruptible = true
      let ends := s.core.priv = .user ∧ s.mustStop c = true
      let ended (i : Instr) : Prop := ∃ t, exec i s = .next t ∧ t.core.run = .idle ∧ t.core.cont = none ∧
        t.core.csr.sepc = s.core.csr.sepc ∧ t.core.csr.scause = s.core.csr.scause ∧ t.core.csr.stval = s.core.csr.stval
      (s.core.priv = .user → rs2 ≠ 0 → exec (.kfail rs1 rs2) s = trap2) ∧
      (rs2 ≠ 0 → s.isLive m.toNat = false → exec (.kfail rs1 rs2) s = trap2) ∧
      (rs2 = 0 → s.core.cont = none → exec (.kfail rs1 rs2) s = trap2) ∧
      (∀ g, (rs2 = 0 → s.region = some g) → (rs2 ≠ 0 → s.core.priv ≠ .user ∧ g = m.toNat) → s.isLive g = true →
        let inside := s.region.any (s.within (s.domainRoot maxLevel g))
        ∃ t, exec (.kfail rs1 rs2) s = .next t ∧ t.core.regs = s.core.regs ∧ (placed → t.quiescing g = true) ∧
          (inside = true → t.core.run = .idle ∧ t.core.cont = none) ∧
          (inside = false → t.core.run = s.core.run ∧ t.core.cont = s.core.cont ∧ Retired s t)) ∧
      (¬legal → exec (.trapset rd rs1 rs2) s = trap2) ∧
      (legal → m = 0 → ∃ t, exec (.trapset rd rs1 rs2) s = .next t ∧ Retired s t ∧ KeepsOthers rd s t ∧
        t.x rd = (if rd = 0 then 0 else setBit s.core.redirect.mask 63 s.core.redirect.active) ∧
        t.core.redirect = { s.core.redirect with block := b, mask := 0 }) ∧
      (legal → m ≠ 0 → scalarLoad b 8 s = .ok v s1 → ∃ t, exec (.trapset rd rs1 rs2) s = .next t ∧
        t.x rd = (if rd = 0 then 0 else setBit s.core.redirect.mask 63 s.core.redirect.active) ∧
        t.core.redirect = ⟨BitVec.ofNat 64 v, b, m, s.core.redirect.active⟩ ∧ SameMemory s1 t ∧ Retired s t) ∧
      (s.core.priv ≠ .user ∨ s.core.redirect.active = false → exec .trapsetRet s = trap2) ∧
      (s.core.priv = .user → s.core.redirect.active = true → scalarLoad (block + 8) 8 s = .ok v s1 →
        ∃ t, exec .trapsetRet s = .next t ∧ t.core.pc = BitVec.ofNat 64 v ∧ t.core.priv = .user ∧
          t.core.redirect = { s.core.redirect with active := false } ∧ t.core.regs = s.core.regs ∧ t.core.dcache = [] ∧
          SameMemory s1 t) ∧
      (c < 2304 →
        (¬stops ∨ s.core.storageErrors = [] → exec (.storageErrorTrap c) s = .next s) ∧
        (∀ e es, stops → ¬ends → s.core.storageErrors = e :: es → exec (.storageErrorTrap c) s =
          .next ((s.mapCore fun k => { k with storageErrors := es }).leaveChargeQueue.takeTrap 52 e)) ∧
        (stops → ends → s.core.storageErrors ≠ [] → ended (.storageErrorTrap c)) ∧
        (¬stops ∨ ¬ends ∧ s.enabledInterrupt = none → exec (.interruptTrap c 0) s = .next s) ∧
        (∀ n, stops → ¬ends → s.enabledInterrupt = some n →
          exec (.interruptTrap c 0) s = .next (s.leaveChargeQueue.takeInterrupt n)) ∧
        (stops → ends → ended (.interruptTrap c 0)) ∧
        (stops → (s.enabledInterrupt ≠ none ∨ s.core.storageErrors ≠ [] ∨ ends) →
          exec (.interruptTrap c (groups + 1)) s = .next (s.mapCore fun k => { k with stopAt := some (groups + 1) })) ∧
        (¬stops ∨ s.enabledInterrupt = none ∧ s.core.storageErrors = [] ∧ ¬ends →
          exec (.interruptTrap c (groups + 1)) s = .next s)))

/-! ### Power -/

/-- `pwreq` gives the first status that applies, 4 not permitted, 3 busy, 2 above the budget, 1 below the floor of the table
in force, or 0 and starts the request: towards another level, through VoltAdj for another offset at the level in force, with
forced 0 (the model's choice: log entry 60); one for the level and the offset in force changes nothing but the last status (R8). After reset the table is that
of R365. `pwstat` gives its item, the high-water mark being a free value of 0 to 64 that is no less than the mark that the
last read left (the model's choice: log entry 15). `pwpin` adds what B_up pays to the held load and gives it; an amount
that cannot be paid at once is queued once and fixed while it waits, until that charge is paid; and all ones releases the held
load for which no release waits. `pwslot` wakes, gates or queries a core of the die (R356, R365, R371 to R373, R375).
`pwgrant` clears, sets or leaves the voluntary lane ceiling, refuses any other value with cause 2, and gives the
offer that stands then, which before the governor's first tick is that of reset (the model's choice: log entry 74). -/
def Obligations.PowerInstructions : Prop :=
  (∀ (s : State) (rd rs1 : BitVec 5),
    let v := s.x rs1
    let set (n : Nat) : State := s.mapCore fun c => { c with power := { c.power with vol := n } }
    let after (u : State) : Prop := ∃ t, exec (.pwgrant rd rs1) s = .next t ∧
      WritesX rd (BitVec.ofNat 64 (u.offerField s.core.id)) u t
    (v = 0 → after (set 128)) ∧ (v ≠ 0 → v.toNat ≤ 128 → after (set v.toNat)) ∧ (v = -1 → after s) ∧
      (v ≠ -1 → 128 < v.toNat → exec (.pwgrant rd rs1) s = .next (s.takeTrap 2 (s.core.ir.setWidth 64)))) ∧
  ∀ (s : State) (rd rs1 rs2 : BitVec 5) (item : BitVec 10),
    let v := s.x rs1
    let core := s.core.id
    let die := core / 96
    let c := if rs2 = 0 then core / 12 % 8 else (s.x rs2).toNat
    let k := 8 * die + c
    let cl := s.cluster k
    let level := v.toNat % 16
    let u := v.toNat / 16
    let low := min level (cl.level + 1)
    let volts := s.dev.dvfsTable[low]?.getD 0
    let permitted := s.core.priv ≠ .user ∨ ∃ g, s.region = some g ∧ s.dedicated g = true ∧ (s.clusterMask g).testBit c = true
    let gives (x : Word) (t : State) : Prop := t.x rd = (if rd = 0 then 0 else x) ∧ KeepsOthers rd s t ∧ Retired s t
    let trap2 : Host.Outcome State Fault Refusal := .next (s.takeTrap 2 (s.core.ir.setWidth 64))
    let named := 8 * die + (if v = -1 then core / 12 % 8 else v.toNat)
    let target := 96 * die + v.toNat
    let code := (s.coreOf target).slotCode
    let held := s.core.power.held
    let a := s.core.power.pin.getD (min v.toNat (14420 - held))
    let asked := (s.die die).charges.any fun q => q.payer = .pin core
    let waiting := (((s.die die).releases.filter (Release.holds core)).map (·.held)).sum
    let rest : List Release := if held ≤ waiting then [] else [⟨core, held - waiting, .load, held - waiting⟩]
    (512 ≤ v.toNat ∨ 7 < c → exec (.pwreq rd rs1 rs2) s = trap2) ∧
    (die < 24 → v.toNat < 512 → c ≤ 7 →
      (∀ p ∈ [(4, ¬permitted), (3, permitted ∧ cl.dvfs ≠ .idle), (2, permitted ∧ cl.dvfs = .idle ∧ cl.maxlvl < level),
          (1, permitted ∧ cl.dvfs = .idle ∧ level ≤ cl.maxlvl ∧ volts < 420 + 5 * u)],
        p.2 → ∃ t, exec (.pwreq rd rs1 rs2) s = .next t ∧ gives (BitVec.ofNat 64 p.1) t ∧
          t.cluster k = { cl with lastStatus := p.1 }) ∧
      (permitted → cl.dvfs = .idle → level ≤ cl.maxlvl → 420 + 5 * u ≤ volts → cl.level = level → cl.undervolt = u →
        ∃ t, exec (.pwreq rd rs1 rs2) s = .next t ∧ gives 0 t ∧ t.cluster k = { cl with lastStatus := 0 }) ∧
      (permitted → cl.dvfs = .idle → level ≤ cl.maxlvl → 420 + 5 * u ≤ volts → (cl.level = level → cl.undervolt ≠ u) →
        ∃ t, exec (.pwreq rd rs1 rs2) s = .next t ∧
        gives 0 t ∧ (t.cluster k).target = level ∧ (t.cluster k).undervolt = u ∧ (t.cluster k).level = cl.level ∧
        (t.cluster k).forced = false ∧ (t.cluster k).lastStatus = 0 ∧
        (t.cluster k).dvfs = (if cl.level < level then .charging else if level < cl.level then .releasing
          else .voltAdj) ∧
        (level = cl.level → (t.cluster k).rail = volts - 5 * u ∧
          (t.cluster k).arrive = s.tick + 100 * ((cl.rail - (volts - 5 * u)) + (volts - 5 * u - cl.rail))))) ∧
    (∀ l < 16, State.reset.dev.dvfsTable[l]? = some (if l ≤ 10 then 420 + 8 * l else 500 + 20 * (l - 10))) ∧
    (6 < item.toNat ∨ item.toNat < 2 ∧ v ≠ -1 ∧ 7 < v.toNat → exec (.pwstat rd rs1 item) s = trap2) ∧
    (item.toNat ≤ 6 → item ≠ 1 → (item = 0 → v = -1 ∨ v.toNat ≤ 7) → ∃ t, exec (.pwstat rd rs1 item) s = .next t ∧
      WritesX rd (BitVec.ofNat 64 (match item.toNat with
        | 0 => (s.cluster named).word
        | 2 => (s.cluster (core / 12)).ringEntry v.toNat
        | 3 => (s.cluster (core / 12)).samples
        | 4 => (s.die die).bUp
        | 5 => (s.die die).bDn
        | _ => (s.die die).charges.length)) s t) ∧
    (v = -1 ∨ v.toNat ≤ 7 → ∃ t n, exec (.pwstat rd rs1 1) s = .next t ∧ gives (BitVec.ofNat 64 n) t ∧
      (s.cluster named).fifoMark ≤ n ∧ n ≤ max 64 (s.cluster named).fifoMark ∧
      (die < 24 → (t.cluster named).fifoMark ≤ n)) ∧
    (v = -1 → die < 24 → ∃ t, exec (.pwpin rd rs1) s = .next t ∧ gives 0 t ∧ t.core.power.heldSince = none ∧
      (t.die die).releases = (s.die die).releases ++ rest) ∧
    (v ≠ -1 → s.core.power.paid = false → held + a ≤ 14420 → die < 24 →
      (a = 0 ∨ (s.die die).charges = [] ∧ a ≤ (s.die die).bUp) →
      ∃ t, exec (.pwpin rd rs1) s = .next t ∧ gives (BitVec.ofNat 64 (held + a)) t ∧ t.core.power.held = held + a ∧
        t.core.power.pin = none ∧ (t.die die).bUp = (s.die die).bUp - a) ∧
    (v ≠ -1 → s.core.power.paid = false → a ≠ 0 → (s.die die).charges ≠ [] ∨ (s.die die).bUp < a →
      exec (.pwpin rd rs1) s = .next ((if asked then s else s.mapDie die fun d =>
        { d with charges := d.charges ++ [⟨.pin core, a, s.region⟩] }).mapCore fun c =>
          { c with power := { c.power with pin := some a } })) ∧
    (v ≠ -1 → s.core.power.paid = true → ∃ t, exec (.pwpin rd rs1) s = .next t ∧ gives (BitVec.ofNat 64 held) t ∧
      t.core.power = { s.core.power with paid := false, pin := none }) ∧
    (s.core.priv = .user ∨ 95 < v.toNat ∨ 2 < (s.x rs2).toNat → exec (.pwslot rd rs1 rs2) s = trap2) ∧
    (s.core.priv ≠ .user → v.toNat ≤ 95 →
      (s.x rs2 = 0 → code = 0 → ∃ t, exec (.pwslot rd rs1 rs2) s = .next t ∧ WritesX rd (-1) s t) ∧
      (s.x rs2 = 0 → code = 4 → ∃ t, exec (.pwslot rd rs1 rs2) s = .next t ∧ KeepsOthers rd s t ∧ Retired s t ∧
        (t.coreOf target).power.gate = .waiting s.tick) ∧
      (s.x rs2 = 0 → code = 1 ∨ code = 2 → ∃ t, exec (.pwslot rd rs1 rs2) s = .next t ∧ gives (BitVec.ofNat 64 s.tick) t) ∧
      (s.x rs2 = 1 → code = 2 → ∃ t, exec (.pwslot rd rs1 rs2) s = .next t ∧ gives 0 t ∧
        (die < 24 → ∃ r ∈ (t.die die).releases, r.core = target ∧ r.kind = .gating)) ∧
      (s.x rs2 = 1 → code ≠ 2 → ∃ t, exec (.pwslot rd rs1 rs2) s = .next t ∧ WritesX rd (-1) s t) ∧
      (s.x rs2 = 2 → ∃ t, exec (.pwslot rd rs1 rs2) s = .next t ∧ WritesX rd (BitVec.ofNat 64 code) s t))

/-- The governor's own steps. A station tick advances the time and, where nothing waits, refills both balances of every die
by 50 mA up to 64,000; a core in hold for 40,000 ticks is queued for gating; a waking core that heads its cluster's list
ends its slot after 2,000 ticks and is in hold 2,000 later; a core idle in qv for 1,000 cycles releases its load; a held
load that no dispatch or restore has reached for 4,000 ticks is released as far as no release waits for it; a cluster whose clock or rail arrives, no sooner than
its slew allows, moves on: the rail up is followed by the clock, the clock down by the rail, and the end of a level by the charge
or the release of the next (which names no region: the model's reading, log entry 48; for the cores not gated as it is queued: the
model's choice, log entry 108), or by Idle with interrupt 18, from where a
cluster above MAXLVL is forced down with offset 0; a paid charge starts
the rail up and a paid release the clock down, no rail below 0.42 V; its ring takes an entry of the three counts for each 10,000 ticks; a limit record sets its three limits, MAXLVL staying 0
in maquette service, and interrupts its cores; and an HBM lane is lent and returned (R181, R341, R355, R356, R359, R361,
R365 to R368, R383, R387). That a telemetry sample is only counted is the model's choice (log entry 14), and so is when a
ring entry is latched (log entry 1). -/
def Obligations.GovernorSteps : Prop :=
  ∀ (s : State) (core k die channel : Nat) (maxlvl : BitVec 4) (ceil : BitVec 8) (cap : BitVec 20),
    let p := (s.coreOf core).power
    let cl := s.cluster k
    let next (i : Instr) (f : State → Prop) : Prop := ∃ t, exec i s = .next t ∧ f t
    let load := 60 * (p.powered - 1) + p.modeCharge
    let railAt (l : Nat) : Nat := max 420 (s.dev.dvfsTable[l]?.getD 0 - 5 * cl.undervolt)
    let slew (l : Nat) : Nat := 100 * ((cl.rail - railAt l) + (railAt l - cl.rail))
    let d := s.die (k / 8)
    let step := 800 * ((List.range 12).filter fun i => !(s.coreOf (12 * k + i)).isGated).length
    let quietDies (own : Nat → Prop) : Prop := ∀ i < 24, ¬own i → (s.die i).charges = [] ∧ (s.die i).releases = []
    let waiting := (((s.die (core / 96)).releases.filter (Release.holds core)).map (·.held)).sum
    let rest : List Release := if p.held ≤ waiting then [] else [⟨core, p.held - waiting, .load, p.held - waiting⟩]
    let told (t : State) : Prop :=
      ∀ c ∈ t.cores, c.id / 12 = k → bit (c.csr.mie &&& c.csr.mideleg) 18 = true → bit c.csr.mip 18 = true
    let goesOn (l : Nat) (t : State) : Prop := (t.cluster k).level = l ∧
      (l < cl.target → (t.cluster k).dvfs = .charging ∧ (t.die (k / 8)).charges = d.charges ++ [⟨.level k, step, none⟩]) ∧
      (cl.target < l → (t.cluster k).dvfs = .releasing ∧
        (t.die (k / 8)).releases = d.releases ++ [⟨12 * k, step, .level k, 0⟩]) ∧
      (cl.target = l → told t ∧ (t.cluster k).lastStatus = (if cl.superseded then 5 else cl.lastStatus) ∧
        (l ≤ cl.maxlvl → (t.cluster k).dvfs = .idle ∧ (t.cluster k).target = l) ∧
        (cl.maxlvl < l → (t.cluster k).dvfs = .releasing ∧ (t.cluster k).target = cl.maxlvl ∧ (t.cluster k).forced = true ∧
          (t.cluster k).undervolt = 0))
    next .tokenRefill (fun t => t.tick = s.tick + 1 ∧ t.core.regs = s.core.regs ∧ t.core.pc = s.core.pc ∧ SameMemory s t ∧
      ((∀ d < 24, (s.die d).charges = []) → ∀ d < 24, (s.die d).releases = [] → (t.die d).bUp = min 64000 ((s.die d).bUp + 50) ∧
        (t.die d).bDn = min 64000 ((s.die d).bDn + 50))) ∧
    (core < 2304 →
      (∀ since, p.gate = .hold since → (s.coreOf core).cont = none → since + 40000 ≤ s.tick → next (.coreGate core) fun t =>
        ∃ r ∈ (t.die (core / 96)).releases, r.core = core ∧ r.kind = .gating) ∧
      (∀ since, p.gate = .hold since → s.tick < since + 40000 ∨ (s.coreOf core).cont ≠ none →
        exec (.coreGate core) s = .next s) ∧
      (∀ r, p.gate = .waiting r → (s.cluster (core / 12)).wakes.head? = some core → r + 2000 ≤ s.tick →
        next (.coreWakeReady core) fun t => (s.cluster (core / 12)).wakes = [core] →
          (t.coreOf core).power.gate = .restarting (s.tick + 2000) ∧ (t.cluster (core / 12)).wakes = []) ∧
      (∀ r, p.gate = .restarting r → r ≤ s.tick → next (.coreWakeReady core) fun t =>
        (t.coreOf core).power.gate = .hold s.tick) ∧
      ((s.coreOf core).cont ≠ none → s.corePinned core = false → 1000 ≤ p.qvIdle → p.quietLoad = 0 → load ≠ 0 →
        next (.coreQuiet core) fun t => (t.coreOf core).power.quietLoad = load ∧ (t.coreOf core).power.held = min 14420 (p.held + load) ∧
          (t.die (core / 96)).releases = (s.die (core / 96)).releases ++ [⟨core, load, .quiet, min load (14420 - p.held)⟩]) ∧
      ((s.coreOf core).cont = none ∨ p.qvIdle < 1000 → exec (.coreQuiet core) s = .next s) ∧
      (p.heldSince = none → exec (.heldLoadRelease core) s = .next s) ∧
      (∀ t0, p.heldSince = some t0 → s.tick < t0 + 4000 ∨ (s.coreOf core).cont ≠ none →
        exec (.heldLoadRelease core) s = .next s) ∧
      (∀ t0, p.heldSince = some t0 → t0 + 4000 ≤ s.tick → (s.coreOf core).cont = none → next (.heldLoadRelease core) fun t =>
        (t.coreOf core).power.heldSince = none ∧ (t.die (core / 96)).releases = (s.die (core / 96)).releases ++ rest)) ∧
    (k < 192 →
      (cl.arrive ≤ s.tick → cl.dvfs = .voltUp → next (.railAtTarget k) fun t =>
        t.cluster k = { cl with dvfs := .freqUp, arrive := s.tick + 100 } ∧ SameMemory s t) ∧
      (cl.arrive ≤ s.tick → cl.dvfs = .freqDown → next (.clockAtLevel k) fun t => SameMemory s t ∧ t.cluster k = { cl with
        level := cl.level - 1, dvfs := .voltDown, rail := railAt (cl.level - 1), arrive := s.tick + slew (cl.level - 1) }) ∧
      (cl.arrive ≤ s.tick → cl.dvfs = .voltDown ∨ cl.dvfs = .voltAdj → next (.railAtTarget k) fun t => goesOn cl.level t ∧ SameMemory s t) ∧
      (cl.arrive ≤ s.tick → cl.dvfs = .freqUp → next (.clockAtLevel k) fun t => goesOn (cl.level + 1) t ∧ SameMemory s t) ∧
      (∀ a, cl.dvfs = .charging → quietDies (· = k / 8) → d.charges = [⟨.level k, a, none⟩] → d.releases = [] → a ≤ d.bUp →
        next .tokenRefill fun t => (t.die (k / 8)).charges = [] ∧ (t.die (k / 8)).bUp = min 64000 (d.bUp - a + 50) ∧
          (t.cluster k).dvfs = .voltUp ∧ (t.cluster k).level = cl.level ∧ (t.cluster k).rail = railAt (cl.level + 1) ∧
          (t.cluster k).arrive = s.tick + slew (cl.level + 1)) ∧
      (∀ a, cl.dvfs = .releasing → quietDies (· = k / 8) → d.charges = [] → d.releases = [⟨12 * k, a, .level k, 0⟩] → a ≤ d.bDn →
        next .tokenRefill fun t => (t.die (k / 8)).releases = [] ∧ (t.die (k / 8)).bDn = min 64000 (d.bDn - a + 50) ∧
          (t.cluster k).dvfs = .freqDown ∧ (t.cluster k).level = cl.level ∧ (t.cluster k).rail = cl.rail ∧
          (t.cluster k).arrive = s.tick + 100) ∧
      (s.tick < cl.arrive → exec (.railAtTarget k) s = .next s ∧ exec (.clockAtLevel k) s = .next s) ∧
      (cl.dvfs = .idle → exec (.railAtTarget k) s = .next s ∧ exec (.clockAtLevel k) s = .next s) ∧
      (cl.samples < s.tick / 10000 → next (.ringLatch k) fun t => (t.cluster k).samples = cl.samples + 1 ∧
        (t.cluster k).active = 0 ∧ (t.cluster k).mstall = 0 ∧ (t.cluster k).issue = 0 ∧
        (t.cluster k).ring = (⟨min (2 ^ 18 - 1) cl.active, min (2 ^ 18 - 1) cl.mstall, min (2 ^ 18 - 1) cl.issue, cl.level⟩ ::
          cl.ring).take 16) ∧
      (s.tick / 10000 ≤ cl.samples → exec (.ringLatch k) s = .next s) ∧
      (next (.limitRecordUpdate k maxlvl ceil cap) fun t =>
        (t.cluster k).maxlvl = (if s.dev.service = .maquette then 0 else maxlvl.toNat) ∧
        (t.cluster k).ceil = max 1 (min 128 ceil.toNat) ∧ (t.cluster k).cap = cap.toNat % 4 ∧ SameMemory s t ∧ told t)) ∧
    (die < 24 → (next (.hbmLaneLend die channel) fun t => channel ∈ (t.die die).lent ∧ SameMemory s t) ∧
      (next (.hbmLaneReturn die channel) fun t => (t.die die).lent = (s.die die).lent.erase channel ∧ SameMemory s t)) ∧
    (next .telemetrySample fun t => t = { s with dev := { s.dev with telemetry := s.dev.telemetry + 1 } })

/-! ### Errors, bring-up, the host and the peers -/

/-- Errors and ports. A corrected error of an L2 slice or an HBM channel is counted and leaves the data; an uncorrectable one
poisons its sector. A lane slice at its threshold of corrected errors, or with an uncorrectable one, is marked once for
retirement, and cause 52 is left pending with the lane; an error of an operand store leaves cause 52 pending, one of a
siding a bad image, and one of a cache drops the line. Each is counted for its unit. Where the ring of its die is placed
and has room, an event is written at entry NEXT with the snapshots that include it, its sectors lose their poison, and NEXT advances; in a full ring it is
counted as lost; interrupt 19 is pending on the cores of the die that enable it. A fatal error halts every core, and the
cast tells it; a lost port fails the copies on it and is out of service until it is retrained, whatever the service it
was lost in, and serves again in full service; an ATS invalidation drops the translations of its range under every PASID (the
model's choice: log entry 67); a failed
controller hands over to the other, and the second failure is fatal (R376 to R380, R383, R386, R387). That a ring is not
placed where its address is 0 (log entry 21), that die 0 logs what ports and controllers bring (log entry 23), and that
errors arrive by events that name what they hit (log entry 56) are the model's choices. -/
def Obligations.ErrorsAndPorts : Prop :=
  ∀ (s : State) (die port lo len : Nat) (unit lane : BitVec 16) (addr : BitVec 64) (source : BitVec 8),
    let u := unit.toNat
    let l := lane.toNat
    let a := addr.toNat
    let d := s.die die
    let k := s.coreOf u
    let next (i : Instr) (f : State → Prop) : Prop := ∃ t, exec i s = .next t ∧ f t
    let counted (src l : Nat) (corrected : Bool) (t : State) : Prop :=
      (t.die die).corrected = (if corrected then d.corrected + 1 else d.corrected) ∧
        (t.die die).uncorrected = (if corrected then d.uncorrected else d.uncorrected + 1) ∧
        (t.die die).counter src u l = min (2 ^ 32 - 1) (d.counter src u l + 1)
    let site (src : Nat) : Prop := die < 24 ∧ match src with
      | 3 => u < 2304 ∧ u / 96 = die ∧ homeSlice a = u
      | 5 => isHbm a = true ∧ canonical a / 2 ^ 37 = die ∧ u / 64 = die ∧ u / 32 % 2 = hbmStack a ∧ u % 32 = hbmChannel a
      | _ => u < 2304 ∧ u / 96 = die
    let recent := (k.laneErrors.filter fun e => s.tick < e.1 + 2 ^ 30 && e.2 = l).length + 1
    (d.logBase = 0 →
      (∀ src ∈ [3#8, 5#8], site src.toNat →
        (next (.correctedError die src unit addr lane) fun t => counted src.toNat 0 true t ∧ SameMemory s t ∧
          t.mem.poison = s.mem.poison) ∧
        (next (.uncorrectableError die src unit addr lane) fun t => counted src.toNat 0 false t ∧ SameMemory s t ∧
          t.poisoned a = true ∧ ∀ p ∈ t.mem.poison, p = canonical a / 32 ∨ p ∈ s.mem.poison)) ∧
      (site 1 → l < 128 →
        (next (.correctedError die 1 unit addr lane) fun t => counted 1 l true t ∧ SameMemory s t ∧
          if s.dev.threshold ≤ recent ∧ k.reported.getLsbD l = false then
            (t.coreOf u).pendingRetire = k.pendingRetire ||| 1#128 <<< l ∧ (t.coreOf u).reported.getLsbD l = true ∧
              (t.coreOf u).storageErrors = k.storageErrors ++ [BitVec.ofNat 64 l]
          else (t.coreOf u).pendingRetire = k.pendingRetire ∧ (t.coreOf u).storageErrors = k.storageErrors) ∧
        (next (.uncorrectableError die 1 unit addr lane) fun t => counted 1 l false t ∧ SameMemory s t ∧
          if k.reported.getLsbD l = false then
            (t.coreOf u).pendingRetire = k.pendingRetire ||| 1#128 <<< l ∧ (t.coreOf u).reported.getLsbD l = true ∧
              (t.coreOf u).storageErrors = k.storageErrors ++ [BitVec.ofNat 64 (128 + l)]
          else (t.coreOf u).pendingRetire = k.pendingRetire ∧ (t.coreOf u).storageErrors = k.storageErrors)) ∧
      (site 2 → next (.uncorrectableError die 2 unit addr lane) fun t => counted 2 0 false t ∧
        (t.coreOf u).storageErrors = k.storageErrors ++ [0x180]) ∧
      (site 4 → next (.uncorrectableError die 4 unit addr lane) fun t => counted 4 0 true t ∧ SameMemory s t ∧
        (∀ x ∈ (t.coreOf u).dcache, x.line ≠ a / 128) ∧ ∀ x ∈ (t.coreOf u).icache, x.line ≠ a / 128) ∧
      (site 6 → next (.uncorrectableError die 6 unit addr lane) fun t => counted 6 0 false t ∧
        (t.coreOf u).siding.bad = true)) ∧
    (let b := d.logBase
      let seq := s.readPA b 8
      let e := b + 64 + 64 * (seq % 256)
      let lost := s.readPA (b + 16) 8
      let told (t : State) : Prop :=
        ∀ c ∈ t.cores, c.id / 96 = die → bit (c.csr.mie &&& c.csr.mideleg) 19 = true → bit c.csr.mip 19 = true
      b ≠ 0 → b + 16448 ≤ 2 ^ 48 → s.mem.discards = [] → s.Inv → s.tick < 2 ^ 64 → site 3 →
        ((seq + 2 ^ 64 - s.readPA (b + 8) 8) % 2 ^ 64 ≠ 256 → next (.uncorrectableError die 3 unit addr lane) fun t =>
          counted 3 0 false t ∧ told t ∧ t.readPA e 8 = seq ∧ t.readPA (e + 8) 1 = 3 ∧ t.readPA (e + 9) 1 = 1 ∧
          t.readPA (e + 10) 2 = u ∧ t.readPA (e + 12) 2 = 0xFFFF ∧ t.readPA (e + 16) 8 = a ∧ t.readPA (e + 24) 8 = s.tick ∧
          t.readPA (e + 32) 4 = min (2 ^ 32 - 1) (d.counter 3 u 0 + 1) ∧ t.readPA (e + 36) 4 = lost % 2 ^ 32 ∧
          t.readPA (e + 40) 8 = d.corrected.toNat ∧ t.readPA (e + 48) 8 = (d.uncorrected + 1).toNat ∧
          t.readPA (e + 56) 8 = 0 ∧ t.readPA b 8 = (seq + 1) % 2 ^ 64 ∧
          (b % 32 = 0 → ∀ i < 64, t.poisoned (e + i) = false) ∧ ∀ x, Apart x 1 b 8 → Apart x 1 e 64 → t.byteAt x = s.byteAt x) ∧
        ((seq + 2 ^ 64 - s.readPA (b + 8) 8) % 2 ^ 64 = 256 → next (.uncorrectableError die 3 unit addr lane) fun t =>
          counted 3 0 false t ∧ told t ∧ t.readPA (b + 16) 8 = (lost + 1) % 2 ^ 64 ∧ MemoryOutside (b + 16) 8 s t)) ∧
    (next (.fatalError die source unit addr) fun t => t.dev.service = .fatal ∧ (∀ c ∈ t.cores, c.run = .halted) ∧
      ∃ x, t.dev.cast = some x ∧ x.cause = .reported die source unit addr ∧ x.tick = s.tick) ∧
    (port < 18 → next (.junctionPortDown port) fun t => (t.dev.ports[port]?.any (·.inService)) = false ∧
      (t.dev.ports[port]?.any (·.down)) = true ∧ (s.core.run = .halted → t.core.copies = s.core.copies)) ∧
    (port < 18 → s.core.id < 2304 → s.core.run ≠ .halted → s.others = [] → (s.die 0).logBase = 0 →
      next (.junctionPortDown port) fun t => SameMemory s t ∧
        ∀ n < 64, let e := s.core.copy n
          let on := e.kind ≠ .local ∧ e.port = port ∧ e.accepted = true ∧ e.state ∈ [.queued, .running, .stopping]
          (¬on → t.core.copy n = e) ∧
          (on → (∀ x, e.advanced = some x → x + 40 ≤ s.tick) → (t.core.copy n).state = .faulted ∧
            (t.core.copy n).fcause = (if e.kind = .put then 7 else 5) ∧ (t.core.copy n).gen = e.gen + 1 ∧
            (t.core.copy n).faddr = if e.kind = .put then e.dstAt e.done else e.srcAt e.done) ∧
          (on → (∃ x, e.advanced = some x ∧ s.tick < x + 40) → t.core.copy n = { e with lost := true })) ∧
    (port < 18 → next (.portRetrain port) fun t => (t.dev.ports[port]?.any (·.down)) = false ∧
      (t.dev.ports[port]?.any (·.inService)) = (s.dev.service == .full) ∧ t.core = s.core ∧ t.mem = s.mem) ∧
    (s.dev.marom = false → next .maromFailover fun t => t.dev.marom = true ∧ t.dev.service = s.dev.service ∧ t.live = s.live) ∧
    (s.dev.marom = true → next .maromFailover fun t => t.dev.service = .fatal ∧ ∀ c ∈ t.cores, c.run = .halted) ∧
    (next (.atsInvalidation lo len) fun t => t.mem = s.mem ∧ t.core = s.core ∧
      ∀ p, p ∈ t.dev.ats ↔ p ∈ s.dev.ats ∧ ¬(lo < 4096 * (p.2 + 1) ∧ 4096 * p.2 < lo + len))

/-- Accesses from outside. A host write or a peer's put stores its bytes at their addresses and nothing else where the
addresses exist and are accepted; a host read or a peer's get gives them, marked where one is poisoned in a page that is not discarded; a host
AtomicOp gives the old value and stores the new one; on a poisoned sector, and as a compare and swap that finds another value,
it writes nothing and takes no reservation. A write into a discarded page
revives it: every other byte of the page is zero and Z is clear (R189, R289, R290, R320, R376, R386). What the requester
received last (log entry 14) and that an AtomicOp is one step (log entry 57) are the model's choices. -/
def Obligations.OutsideAccesses : Prop :=
  ∀ (s : State) (addr len op width port offset : Nat) (bytes : List Byte) (x y : BitVec 64), s.Inv →
    let next (i : Instr) (f : State → Prop) : Prop := ∃ t, exec i s = .next t ∧ t.core.regs = s.core.regs ∧ f t
    let n := width / 8
    let old := s.readPA addr n
    let spread := 2 ^ 48 + offset
    let stores (pa : Nat) (t : State) : Prop :=
      (∀ i (h : i < bytes.length), t.byteAt (pa + i) = bytes[i].toNat) ∧
        ∀ a, (∀ i < bytes.length, Apart a 1 (pa + i) 1) → t.byteAt a = s.byteAt a
    let reads (pa m : Nat) (t : State) : Prop := SameMemory s t ∧ t.mem.poison = s.mem.poison ∧ t.dev.completion =
      some ((List.range m).map (fun i => BitVec.ofNat 8 (s.byteAt (pa + i))),
        (List.range m).any fun i => s.poisoned (pa + i) && (s.discardAt (pa + i)).isNone)
    let whole (pa m : Nat) : Prop := s.deviceAddress pa = true ∧ s.deviceAddress (pa + m - 1) = true
    let atomic := (width = 32 ∨ width = 64) ∧ op ≤ 2 ∧ addr % n = 0 ∧ s.deviceAddress addr = true
    (whole addr bytes.length → s.mem.discards = [] →
      (∀ i j, i < j → j < bytes.length → Apart (addr + i) 1 (addr + j) 1) → next (.hostWrite addr bytes) (stores addr)) ∧
    (∀ (d : Discard) (b : Byte), s.deviceAddress addr = true →
      (s.mem.discards.find? fun d => pageHolds d.base d.bits (canonical addr)) = some d →
      (s.readPA d.pteAddr 8).testBit 12 = true → (∀ i < 8, pageHolds d.base d.bits (canonical d.pteAddr + i) = false) →
      next (.hostWrite addr [b]) fun t => t.byteAt addr = b.toNat ∧ (t.readPA d.pteAddr 8).testBit 12 = false ∧
        (∀ a, pageHolds d.base d.bits (canonical a) = true → canonical a ≠ canonical addr → t.byteAt a = 0) ∧
        ∀ a, pageHolds d.base d.bits (canonical a) = false → Apart a 1 d.pteAddr 8 → t.byteAt a = s.byteAt a) ∧
    (¬whole addr bytes.length → exec (.hostWrite addr bytes) s = .next s) ∧
    (whole addr len → next (.hostRead addr len) (reads addr len)) ∧
    (¬whole addr len → exec (.hostRead addr len) s = .next s) ∧
    (atomic → s.mem.discards = [] → (∀ i < n, s.poisoned (addr + i) = false) → next (.hostAtomicop addr op width x y) fun t =>
        t.readPA addr n = (match op with
          | 0 => (old + x.toNat) % 256 ^ n
          | 1 => x.toNat % 256 ^ n
          | _ => if old = y.toNat % 256 ^ n then x.toNat % 256 ^ n else old) ∧
        t.dev.completion = some ((List.range n).map (fun i => BitVec.ofNat 8 (s.byteAt (addr + i))), false) ∧
        MemoryOutside addr n s t) ∧
    (atomic → (∃ i < n, s.poisoned (addr + i) = true ∧ s.discardAt (addr + i) = none) ∨ op = 2 ∧ old ≠ y.toNat % 256 ^ n →
      next (.hostAtomicop addr op width x y) fun t => reads addr n t ∧ t.core = s.core ∧ t.others = s.others) ∧
    (2 < op ∨ ¬(width = 32 ∨ width = 64) → exec (.hostAtomicop addr op width x y) s = .next s) ∧
    (s.accepted port offset bytes.length = true →
      (s.mem.discards = [] → next (.junctionPortRequest port true offset bytes) (stores spread)) ∧
      next (.junctionPortRequest port false offset bytes) (reads spread bytes.length)) ∧
    (s.accepted port offset bytes.length = false →
      exec (.junctionPortRequest port true offset bytes) s = .next s ∧
        next (.junctionPortRequest port false offset bytes) fun t => t.mem = s.mem ∧ t.dev.completion = none)

/-- Bring-up and launches. GO starts the check of an image from AwaitImage or Refused; an image that its host refuses,
is ill formed, uses a revoked key or fails its signature ends in Refused with reason 4, 1, 2 or 3, and another trains
the dies; every die that passes its training shows in DIESOK; die 0 gives maquette service with MAXLVL 0, under which each Idle
cluster above level 0 begins its forced fall, level by level, each for its release, and all dies full service,
in which every port serves but one that was lost and is not yet retrained; the root's RCB then holds the values of R410. A module reset returns to AwaitImage, keeps the bytes of memory and
returns no retired lane, so that kvlmax and ROWS follow the lanes in service. A write of a register sets what the register map makes writable, and a queue whose doorbell runs
ahead of it, at its write or once QLOG is lowered, stops. A packet that is accepted has its record written and placed in its region's queue, and HEAD counts it;
one that is refused stops its queue with its index and a message (R5, R19, R355, R366, R381 to R383, R385, R410). The model's choices:
the state after reset and what a reset keeps (log entry 3), the device's own fields (log entry 14), which reason stands
before which, and the report after a refusal (log entry 54), the instant at which service sets levels and limits, and the refusal
of a packet whose page the host denies (log entry 55), HEAD at a refused packet (log entry 53), the pages that the device may use for a record (log entry 22), one set of registers for both ports (log entry 68), and that firmware
writes the root's RCB as service begins (log entry 75). -/
def Obligations.BringUpAndLaunch : Prop :=
  ∀ (s : State) (w : BitVec 32) (diesok : BitVec 24) (vf : Nat) (value : BitVec 64),
    let next (i : Instr) (f : State → Prop) : Prop := ∃ t, exec i s = .next t ∧ f t
    let service (t : State) (x : ServiceState) : Prop := t.dev.service = x
    let q := s.dev.vfs[vf]?
    let base := s.kregbase.toNat
    let root (t : State) : Prop := t.prio 0 = 15 ∧ t.weight 0 = 64 ∧ t.margin 0 = 1 ∧ t.flags 0 = 2 ∧
      t.rcbField 0 12 4 = 0x7FF ∧ t.minCores 0 = 2304 ∧ t.maxCores 0 = 2304 ∧ t.dieMask 0 = 0xFFFFFF ∧ t.l2Ways 0 = 0xFFF ∧
      t.clusterMask 0 = 0 ∧ t.hbmShare 0 = 255 ∧ t.cpMask 0 = 2 ^ 96 - 1 ∧ t.pwrShare 0 = 1024 ∧ t.rcbField 0 48 8 = 0 ∧
      t.parent 0 = 0 ∧ t.qhead 0 = 0 ∧ t.qtail 0 = 0 ∧ t.running 0 = 0 ∧ t.queued 0 = 0 ∧ t.saved 0 = 0
    let full (t : State) : Prop := service t .full ∧ t.dev.diesok = -1 ∧
      (∀ p < 18, (t.dev.ports[p]?.any (·.inService)) = !(s.dev.ports[p]?.any (·.down))) ∧
      (∀ k < 192, (t.cluster k).maxlvl = 15) ∧
      (s.dev.service = .training → s.Inv → s.mem.discards = [] → base % 2 ^ 20 = 0 → root t)
    (s.dev.service = .awaitImage ∨ s.dev.service = .refused → next (.go w) fun t =>
      service t .verifying ∧ t.dev.reason = 0 ∧ t.core = s.core ∧ t.mem = s.mem) ∧
    (s.dev.service ∉ [.awaitImage, .refused] → exec (.go w) s = .next s) ∧
    exec (.registerWrite 0 0x38 value) s = exec (.go w) s ∧
    (s.dev.service = .verifying → next .bootVerify fun t =>
      (s.imageRefused = true → service t .refused ∧ t.dev.reason = 4 ∧ t.mem = s.mem) ∧
      (s.imageRefused = false → s.imageHeader = false → service t .refused ∧ t.dev.reason = 1) ∧
      (s.imageRefused = false → s.imageHeader = true → s.imageField 16 1 ∈ s.dev.revoked → service t .refused ∧ t.dev.reason = 2) ∧
      (s.imageRefused = false → s.imageHeader = true → s.imageField 16 1 ∉ s.dev.revoked →
        let good := edVerify (Config.fuseKey (s.imageField 16 1)).toNat s.imageDigest (s.imageBytes 64 64)
        (good = false → service t .refused ∧ t.dev.reason = 3) ∧ (good = true → service t .training ∧ t.dev.reason = 0)) ∧
      (s.imageRefused = false →
        ∃ a, t.dev.attested = some a ∧ a.digest = s.imageDigest ∧ a.nonce = s.dev.nonce ∧ a.keySlot = s.imageField 16 1)) ∧
    (s.dev.service ≠ .verifying → exec .bootVerify s = .next s) ∧
    (s.dev.service = .training ∨ s.dev.service = .maquette →
      let passed := s.dev.diesok ||| diesok
      (passed = -1 → next (.maquetteService diesok) full) ∧ next (.fullService (-1)) full ∧
      (passed ≠ -1 → s.dev.service = .training → passed.getLsbD 0 = true → next (.maquetteService diesok) fun t =>
        service t .maquette ∧ t.dev.diesok = passed ∧
          (∀ k < 192, (t.cluster k).level = (s.cluster k).level ∧ (t.cluster k).maxlvl = 0 ∧
            ((s.cluster k).dvfs = .idle → 0 < (s.cluster k).level →
              (t.cluster k).target = 0 ∧ (t.cluster k).undervolt = 0 ∧ (t.cluster k).forced = true ∧
                (t.cluster k).dvfs = .releasing ∧
                ∃ r ∈ (t.die (k / 8)).releases, r.kind = .level k ∧ r.amount = s.levelCharge k)) ∧
          (∀ p < 18, (t.dev.ports[p]?.any (·.inService)) = false) ∧
          (s.Inv → s.mem.discards = [] → base % 2 ^ 20 = 0 → root t)) ∧
      (passed ≠ -1 → s.dev.service = .maquette ∨ passed.getLsbD 0 = false →
        exec (.maquetteService diesok) s = .next { s with dev := { s.dev with diesok := passed } })) ∧
    (s.dev.service ∉ [.training, .maquette] → exec (.maquetteService diesok) s = .next s) ∧
    (diesok ≠ -1 ∨ s.dev.service ∉ [.training, .maquette] → exec (.fullService diesok) s = .next s) ∧
    (next .moduleReset fun t =>
      let map := (s.coreOf 0).vec.laneMap
      t.core = { Core.reset 0 with
        vec := { VecState.reset with laneMap := map, kvlmax := BitVec.ofNat 17 (vlmaxOf map 32 8) }
        mat := { MatState.reset with predRows := BitVec.ofNat 8 (kmrowsOf map) } } ∧
      ((s.cores.map (·.id)).Nodup → ∀ c, (t.coreOf c).vec.laneMap = (s.coreOf c).vec.laneMap) ∧
      t.dies = State.reset.dies ∧ t.live = [0] ∧ t.tick = 0 ∧ service t .awaitImage ∧ SameMemory s t ∧
      t.mem.poison = s.mem.poison ∧ t.mem.discards = s.mem.discards) ∧
    (∀ p ∈ [(0x008, 0x008), (0x010, 0x010), (0x018, 0x018), (0x020, 0x020), (0x028, 0x028), (0x030, 0x030), (0x040, 0x040),
        (0x048, 0x048), (0x050, 0x050), (0x058, 0x058)],
      next (.registerWrite 0 p.1 value) fun t => t.bar0Read p.2 = value ∧ t.core = s.core ∧ t.mem = s.mem) ∧
    (∀ p ∈ [0x000, 0x060, 0x068], exec (.registerWrite 0 p value) s = .next s) ∧
    (∀ k, q = some k →
      (next (.registerWrite (vf + 1) 0x00 value) fun t => (t.dev.vfs[vf]?.map (·.qbase)) = some value ∧ t.mem = s.mem) ∧
      (next (.registerWrite (vf + 1) 0x08 value) fun t => (t.dev.vfs[vf]?.map (·.qlog)) = some value ∧ t.mem = s.mem) ∧
      (next (.registerWrite (vf + 1) 0x10 value) fun t => exec (.tail vf value) s = .next t) ∧
      (next (.tail vf value) fun t => ∃ k', t.dev.vfs[vf]? = some k' ∧ k'.tail = value.toNat ∧ k'.head = k.head ∧
        (k'.stopped = true ↔ k.stopped = true ∨ ¬(4 ≤ k.qlog.toNat ∧ k.qlog.toNat ≤ 16) ∨
          2 ^ k.qlog.toNat < (value.toNat + 2 ^ 64 - k.head % 2 ^ 64) % 2 ^ 64)) ∧
      (k.stopped = true ∨ k.tail % 2 ^ 64 = k.head % 2 ^ 64 → exec (.launchPacket vf) s = .next s) ∧
      (k.stopped = false → k.ahead ≠ 0 → k.legal = false ∨ 2 ^ k.qlog.toNat < k.ahead → next (.launchPacket vf) fun t =>
        t.mem = s.mem ∧ ∃ k', t.dev.vfs[vf]? = some k' ∧ k'.stopped = true ∧ k'.head = k.head) ∧
      (k.stopped = false → k.legal = true → k.ahead ≠ 0 → k.ahead ≤ 2 ^ k.qlog.toNat →
        let a := hostPa (k.qbase.toNat + 64 * (k.head % 2 ^ k.qlog.toNat))
        let item (off n : Nat) : Nat := s.mem.bytes.read (a + off) n
        let record := BitVec.ofNat 64 (item 40 8)
        let g := k.region
        let p := s.recordPa g record
        let page := (s.pasidOf (some g), a % 2 ^ 48 / 4096)
        let aside (x n : Nat) : Prop := x + n ≤ 2 ^ 48 ∧ (x + n ≤ base ∨ base + 0x108000 ≤ x)
        let refused (t : State) : Prop := ∃ k', t.dev.vfs[vf]? = some k' ∧ k'.stopped = true ∧ k'.head = k.head ∧
          k'.qerrIndex = BitVec.ofNat 32 k.head ∧ t.dev.messages = s.dev.messages ++ [vf]
        (record.toNat % 64 ≠ 0 ∨ isHbm p = false ∨ s.legal p = false ∨ (∀ r, s.walk (s.recordSpace g) record ≠ .ok r) ∨
            s.pagePasses g record = false ∨ s.dev.refuses page = true →
          next (.launchPacket vf) refused) ∧
        (s.Inv → s.mem.discards = [] → s.dev.refuses page = false → s.pagePasses g record = true →
          g < 4096 → base + 0x108000 ≤ 2 ^ 48 → aside p 64 →
          (∀ e w, s.walk (s.recordSpace g) record = .ok (e, w) → aside e.pteAddr 8) → s.accepts g = true →
          (item 0 8 % 4 ≠ 0 ∨ 3 < item 32 1 ∨ item 24 8 % 64 ≠ 0 → next (.launchPacket vf) refused) ∧
          (item 0 8 % 4 = 0 → item 32 1 ≤ 3 → item 24 8 % 64 = 0 → item 16 8 ≠ 0 → next (.launchPacket vf) fun t =>
            (∃ k', t.dev.vfs[vf]? = some k' ∧ k'.stopped = false ∧ k'.head = k.head + 1 ∧
              t.dev.messages = s.dev.messages) ∧
            let v := ((s.useTranslation page).reach g record true).writeLaunch p (item 0 8) (item 8 8) (item 24 8) (item 16 8)
              (item 32 1) g
            t.mem = (v.append g record).mem ∧ t.queue g = s.queue g ++ [record] ∧ v.kregbase = s.kregbase ∧ v.recCode p = item 0 8 ∧ v.recFrame p = item 8 8 ∧
              v.recSucc p = item 24 8 ∧ v.recTotal p = item 16 8 ∧ v.recWidth p = item 32 1 ∧ v.recNext p = 0 ∧
              v.recJoin p = 0 ∧ v.recRegion p = g ∧ v.recStriped p = true ∧
              MemoryOutside p 64 (s.reach g record true) v)))) ∧
    (q = none → exec (.launchPacket vf) s = .next s ∧ exec (.tail vf value) s = .next s)
end

