-- ==== Sys2Proof/Laws/Bytes.lean ====
section
/-! SUPPORT. The byte map: what a read gives after a write, and that every operation keeps the canonical form. -/

namespace Sys2Proof.Machine

/-- A smaller bound is a weaker claim. -/
theorem ByteMap.wfFrom_mono {m : ByteMap} {lo lo' : Nat} (h : lo' ≤ lo) (w : m.wfFrom lo = true) :
    m.wfFrom lo' = true := by
  cases m with
  | nil => rfl
  | cons c m =>
    obtain ⟨k, v⟩ := c
    simp only [ByteMap.wfFrom, Bool.and_eq_true, decide_eq_true_eq] at w ⊢
    exact ⟨⟨by omega, w.1.2⟩, w.2⟩

theorem ByteMap.wfFrom_zero {m : ByteMap} {lo : Nat} (w : m.wfFrom lo = true) : m.wf = true :=
  ByteMap.wfFrom_mono (Nat.zero_le lo) w

/-- An address below every listed one reads as zero. -/
theorem ByteMap.get_below {m : ByteMap} {lo a : Nat} (w : m.wfFrom lo = true) (h : a < lo) : m.get a = 0 := by
  cases m with
  | nil => rfl
  | cons c m =>
    obtain ⟨k, v⟩ := c
    simp only [ByteMap.wfFrom, Bool.and_eq_true, decide_eq_true_eq] at w
    simp only [ByteMap.get]
    rw [if_neg (by omega), if_pos (by omega)]

/-- A write of a byte keeps the canonical form. -/
theorem ByteMap.wfFrom_set {m : ByteMap} {lo : Nat} (w : m.wfFrom lo = true) (a : Nat) (b : Byte) (h : lo ≤ a) :
    (m.set a b).wfFrom lo = true := by
  induction m generalizing lo with
  | nil =>
    simp only [ByteMap.set]
    split
    · rfl
    · simp_all [ByteMap.wfFrom]
  | cons c m ih =>
    obtain ⟨k, v⟩ := c
    simp only [ByteMap.wfFrom, Bool.and_eq_true, decide_eq_true_eq] at w
    simp only [ByteMap.set]
    split
    · split
      · simp_all [ByteMap.wfFrom]
      · simp_all [ByteMap.wfFrom] <;> omega
    · split
      · split
        · exact ByteMap.wfFrom_mono (by omega) w.2
        · simp_all [ByteMap.wfFrom]
      · simp only [ByteMap.wfFrom, Bool.and_eq_true, decide_eq_true_eq]
        exact ⟨w.1, ih w.2 (by omega)⟩

theorem ByteMap.wf_set {m : ByteMap} (w : m.wf = true) (a : Nat) (b : Byte) : (m.set a b).wf = true :=
  ByteMap.wfFrom_set w a b (Nat.zero_le a)

/-- A byte reads back as it was written. -/
theorem ByteMap.get_set_self {m : ByteMap} {lo : Nat} (w : m.wfFrom lo = true) (a : Nat) (b : Byte) :
    (m.set a b).get a = b := by
  induction m generalizing lo with
  | nil => simp only [ByteMap.set]; split <;> simp_all [ByteMap.get]
  | cons c m ih =>
    obtain ⟨k, v⟩ := c
    simp only [ByteMap.wfFrom, Bool.and_eq_true, decide_eq_true_eq] at w
    simp only [ByteMap.set]
    split
    · split
      · simp only [ByteMap.get]; rw [if_neg (by omega), if_pos (by omega)]; simp_all
      · simp [ByteMap.get]
    · split
      · split
        · rw [ByteMap.get_below w.2 (by omega)]; simp_all
        · simp_all [ByteMap.get]
      · simp only [ByteMap.get]; rw [if_neg (by omega), if_neg (by omega)]; exact ih w.2

/-- A write of one byte leaves every other byte. -/
theorem ByteMap.get_set_other {m : ByteMap} {lo : Nat} (w : m.wfFrom lo = true) {a c : Nat} (b : Byte) (h : c ≠ a) :
    (m.set a b).get c = m.get c := by
  induction m generalizing lo with
  | nil =>
    simp only [ByteMap.set]
    split
    · rfl
    · simp only [ByteMap.get]; rw [if_neg h]; split <;> rfl
  | cons e m ih =>
    obtain ⟨k, v⟩ := e
    simp only [ByteMap.wfFrom, Bool.and_eq_true, decide_eq_true_eq] at w
    simp only [ByteMap.set]
    split
    · split
      · rfl
      · simp only [ByteMap.get]
        rw [if_neg h]
        split
        · rw [if_neg (by omega), if_pos (by omega)]
        · rfl
    · split
      · rename_i _ hk
        subst hk
        split
        · simp only [ByteMap.get]
          rw [if_neg h]
          split
          · rw [ByteMap.get_below w.2 (by omega)]
          · rfl
        · simp only [ByteMap.get]; rw [if_neg h, if_neg h]
      · simp only [ByteMap.get]; rw [ih w.2]

/-- A kept part of a byte map is canonical. -/
theorem ByteMap.wfFrom_filter {m : ByteMap} {lo : Nat} (w : m.wfFrom lo = true) (p : Host.Cell → Bool) :
    ByteMap.wfFrom lo (m.filter p) = true := by
  induction m generalizing lo with
  | nil => rfl
  | cons c m ih =>
    obtain ⟨k, v⟩ := c
    simp only [ByteMap.wfFrom, Bool.and_eq_true, decide_eq_true_eq] at w
    rw [List.filter_cons]
    split
    · simp only [ByteMap.wfFrom, Bool.and_eq_true, decide_eq_true_eq]
      exact ⟨w.1, ih w.2⟩
    · exact ByteMap.wfFrom_mono (by omega) (ih w.2)

theorem ByteMap.wf_filter {m : ByteMap} (w : m.wf = true) (p : Host.Cell → Bool) : ByteMap.wf (m.filter p) = true :=
  ByteMap.wfFrom_filter w p

theorem ByteMap.wf_clear {m : ByteMap} (w : m.wf = true) (lo n : Nat) : (m.clear lo n).wf = true :=
  ByteMap.wf_filter w _

theorem ByteMap.wf_slice {m : ByteMap} (w : m.wf = true) (lo n : Nat) : (m.slice lo n).wf = true :=
  ByteMap.wf_filter w _

/-- A write of `n` bytes keeps the canonical form. -/
theorem ByteMap.wf_write {m : ByteMap} (w : m.wf = true) (a n v : Nat) : (m.write a n v).wf = true := by
  induction n generalizing m a v with
  | zero => exact w
  | succ n ih => exact ih (ByteMap.wf_set w a _) (a + 1) (v / 256)

theorem ByteMap.wf_writeBytes {m : ByteMap} (w : m.wf = true) (a : Nat) (bs : List Byte) :
    (m.writeBytes a bs).wf = true := by
  induction bs generalizing m a with
  | nil => exact w
  | cons b bs ih => exact ih (ByteMap.wf_set w a b) (a + 1)

/-- A write of `n` bytes leaves every byte outside them. -/
theorem ByteMap.get_write_other {m : ByteMap} (w : m.wf = true) (a n v : Nat) {c : Nat} (h : c < a ∨ a + n ≤ c) :
    (m.write a n v).get c = m.get c := by
  induction n generalizing m a v with
  | zero => rfl
  | succ n ih =>
    simp only [ByteMap.write]
    rw [ih (ByteMap.wf_set w a _) (a + 1) (v / 256) (by omega), ByteMap.get_set_other w _ (by omega)]

/-- Byte `i` of a write of `n` bytes. -/
theorem ByteMap.get_write_inside {m : ByteMap} (w : m.wf = true) (a n v i : Nat) (h : i < n) :
    (m.write a n v).get (a + i) = BitVec.ofNat 8 (v / 256 ^ i) := by
  induction n generalizing m a v i with
  | zero => omega
  | succ n ih =>
    simp only [ByteMap.write]
    cases i with
    | zero =>
      rw [ByteMap.get_write_other (ByteMap.wf_set w a _) (a + 1) n (v / 256) (by omega)]
      simpa using ByteMap.get_set_self w a (BitVec.ofNat 8 v)
    | succ i =>
      rw [show a + (i + 1) = a + 1 + i by omega, ih (ByteMap.wf_set w a _) (a + 1) (v / 256) i (by omega),
        Nat.div_div_eq_div_mul]
      congr 2
      rw [Nat.pow_succ]
      exact Nat.mul_comm _ _

/-- What `n` bytes read as depends on those bytes only. -/
theorem ByteMap.read_congr {m m' : ByteMap} (a n : Nat) (h : ∀ c, a ≤ c → c < a + n → m.get c = m'.get c) :
    m.read a n = m'.read a n := by
  induction n generalizing a with
  | zero => rfl
  | succ n ih =>
    simp only [ByteMap.read]
    rw [h a (by omega) (by omega), ih (a + 1) fun c h1 h2 => h c (by omega) (by omega)]

/-- `n` bytes read back as they were written (R60). -/
theorem ByteMap.read_write_self {m : ByteMap} (w : m.wf = true) (a n v : Nat) :
    (m.write a n v).read a n = v % 256 ^ n := by
  induction n generalizing m a v with
  | zero => simp [ByteMap.read, Nat.mod_one]
  | succ n ih =>
    simp only [ByteMap.write, ByteMap.read]
    rw [ih (ByteMap.wf_set w a _), ByteMap.get_write_other (ByteMap.wf_set w a _) (a + 1) n (v / 256) (by omega),
      ByteMap.get_set_self w]
    rw [show (256 : Nat) ^ (n + 1) = 256 * 256 ^ n by rw [Nat.pow_succ, Nat.mul_comm], Nat.mod_mul]
    simp

/-- A write elsewhere leaves what `n` bytes read as. -/
theorem ByteMap.read_write_other {m : ByteMap} (w : m.wf = true) (a n v b k : Nat) (h : b + k ≤ a ∨ a + n ≤ b) :
    (m.write a n v).read b k = m.read b k :=
  ByteMap.read_congr b k fun c h1 h2 => ByteMap.get_write_other w a n v (by omega)

/-- What `n` bytes read as is below 256ⁿ. -/
theorem ByteMap.read_lt (m : ByteMap) (a n : Nat) : m.read a n < 256 ^ n := by
  induction n generalizing a with
  | zero => simp [ByteMap.read]
  | succ n ih =>
    simp only [ByteMap.read]
    have := ih (a + 1)
    have := (m.get a).isLt
    rw [Nat.pow_succ]
    omega

end Sys2Proof.Machine
end

