-- ==== Sys2Proof/Laws/Exec.lean ====
section
/-! SUPPORT. How the operations of `Exec` run: one lemma per primitive, so that a meaning's checks simplify away under
hypotheses about the state, and what `execute`, `retiring` and `settle` make of the result. -/

namespace Sys2Proof.Machine

@[simp] theorem bind_run (m : Exec α) (f : α → Exec β) (s : State) :
    (m >>= f) s = match m s with
      | .ok a t => f a t
      | .error e t => .error e t := by
  show EStateM.bind m f s = _
  unfold EStateM.bind
  cases m s <;> rfl

@[simp] theorem pure_run (a : α) (s : State) : (pure a : Exec α) s = .ok a s := rfl

@[simp] theorem get_run (s : State) : (get : Exec State) s = .ok s s := rfl

@[simp] theorem set_run (t s : State) : (set t : Exec PUnit) s = .ok () t := rfl

@[simp] theorem modify_run (f : State → State) (s : State) : (modify f : Exec PUnit) s = .ok () (f s) := rfl

@[simp] theorem throw_run (e : Stop) (s : State) : (throw e : Exec α) s = .error e s := rfl

@[simp] theorem raise_run (c : Nat) (v : Word) (s : State) : (raise c v : Exec α) s = .error (.trap c v) s := rfl

@[simp] theorem illegal_run (s : State) : (illegal : Exec α) s = .error (.trap 2 (s.core.ir.setWidth 64)) s := rfl

@[simp] theorem map_run (g : α → β) (m : Exec α) (s : State) :
    (g <$> m) s = match m s with
      | .ok a t => .ok (g a) t
      | .error e t => .error e t := by
  show EStateM.map g m s = _
  unfold EStateM.map
  cases m s <;> rfl

theorem ite_run (c : Prop) [Decidable c] (m n : Exec α) (s : State) :
    (if c then m else n) s = if c then m s else n s := by split <;> rfl

@[simp] theorem require_true (s : State) : require true s = .ok () s := rfl

@[simp] theorem require_false (s : State) : require false s = .error (.trap 2 (s.core.ir.setWidth 64)) s := rfl

@[simp] theorem waitUntil_true (s : State) : waitUntil true s = .ok () s := rfl

@[simp] theorem waitUntil_false (s : State) : waitUntil false s = .error .wait s := rfl

@[simp] theorem awaitLoads_true (s : State) : awaitLoads true s = .ok () s := rfl

@[simp] theorem awaitLoads_false (s : State) : awaitLoads false s = .error .wait s.stall := rfl

@[simp] theorem getX_run (r : BitVec 5) (s : State) : getX r s = .ok (s.x r) s := rfl

@[simp] theorem putX_run (r : BitVec 5) (v : Word) (s : State) : putX r v s = .ok () (s.setX r v) := rfl

theorem execute_eq (m : Exec Unit) (s : State) : execute m s = .next (settle (m s)) := rfl

/-- A body that completes retires. -/
theorem retiring_ok {m : Exec Unit} {s t : State} (h : m s = .ok () t) : retiring m s = .next t.retire := by
  simp [retiring, execute, settle, h]

/-- A body that traps: the trap is taken from the state it stopped in. -/
theorem retiring_trap {m : Exec Unit} {s t : State} {c : Nat} {v : Word} (h : m s = .error (.trap c v) t) :
    retiring m s = .next (t.takeTrap c v) := by
  simp [retiring, execute, settle, h]

/-- A body that waits leaves the state it stopped in. -/
theorem retiring_wait {m : Exec Unit} {s t : State} (h : m s = .error .wait t) : retiring m s = .next t := by
  simp [retiring, execute, settle, h]

end Sys2Proof.Machine
end

