-- ==== Sys2Proof/Laws/State.lean ====
section
/-! SUPPORT. One lemma for each field under each update of the state, true by `rfl`, and the register file: a register reads
back what was written, x0 reads zero, and no other register changes (R59). -/

namespace Sys2Proof.Machine

/-! ### The module -/
@[simp] theorem State.mapCore_core (f : Core → Core) (s : State) : (s.mapCore f).core = f s.core := rfl
@[simp] theorem State.mapCore_others (f : Core → Core) (s : State) : (s.mapCore f).others = s.others := rfl
@[simp] theorem State.mapCore_mem (f : Core → Core) (s : State) : (s.mapCore f).mem = s.mem := rfl
@[simp] theorem State.mapCore_dies (f : Core → Core) (s : State) : (s.mapCore f).dies = s.dies := rfl
@[simp] theorem State.mapCore_tick (f : Core → Core) (s : State) : (s.mapCore f).tick = s.tick := rfl
@[simp] theorem State.mapCore_kregbase (f : Core → Core) (s : State) : (s.mapCore f).kregbase = s.kregbase := rfl
@[simp] theorem State.mapCore_live (f : Core → Core) (s : State) : (s.mapCore f).live = s.live := rfl
@[simp] theorem State.mapCore_domains (f : Core → Core) (s : State) : (s.mapCore f).domains = s.domains := rfl
@[simp] theorem State.mapCore_preemptions (f : Core → Core) (s : State) : (s.mapCore f).preemptions = s.preemptions := rfl
@[simp] theorem State.mapCore_queues (f : Core → Core) (s : State) : (s.mapCore f).queues = s.queues := rfl
@[simp] theorem State.mapCore_dev (f : Core → Core) (s : State) : (s.mapCore f).dev = s.dev := rfl
@[simp] theorem State.mapCore_inputs (f : Core → Core) (s : State) : (s.mapCore f).inputs = s.inputs := rfl
@[simp] theorem State.mapCore_free (f : Core → Core) (s : State) : (s.mapCore f).free = s.free := rfl

@[simp] theorem State.mapMem_core (f : MemState → MemState) (s : State) : (s.mapMem f).core = s.core := rfl
@[simp] theorem State.mapMem_others (f : MemState → MemState) (s : State) : (s.mapMem f).others = s.others := rfl
@[simp] theorem State.mapMem_mem (f : MemState → MemState) (s : State) : (s.mapMem f).mem = f s.mem := rfl
@[simp] theorem State.mapMem_dies (f : MemState → MemState) (s : State) : (s.mapMem f).dies = s.dies := rfl
@[simp] theorem State.mapMem_tick (f : MemState → MemState) (s : State) : (s.mapMem f).tick = s.tick := rfl
@[simp] theorem State.mapMem_kregbase (f : MemState → MemState) (s : State) : (s.mapMem f).kregbase = s.kregbase := rfl
@[simp] theorem State.mapMem_live (f : MemState → MemState) (s : State) : (s.mapMem f).live = s.live := rfl
@[simp] theorem State.mapMem_domains (f : MemState → MemState) (s : State) : (s.mapMem f).domains = s.domains := rfl
@[simp] theorem State.mapMem_preemptions (f : MemState → MemState) (s : State) : (s.mapMem f).preemptions = s.preemptions := rfl
@[simp] theorem State.mapMem_queues (f : MemState → MemState) (s : State) : (s.mapMem f).queues = s.queues := rfl
@[simp] theorem State.mapMem_dev (f : MemState → MemState) (s : State) : (s.mapMem f).dev = s.dev := rfl
@[simp] theorem State.mapMem_inputs (f : MemState → MemState) (s : State) : (s.mapMem f).inputs = s.inputs := rfl
@[simp] theorem State.mapMem_free (f : MemState → MemState) (s : State) : (s.mapMem f).free = s.free := rfl

@[simp] theorem State.mapDie_core (d : Nat) (f : Die → Die) (s : State) : (s.mapDie d f).core = s.core := rfl
@[simp] theorem State.mapDie_others (d : Nat) (f : Die → Die) (s : State) : (s.mapDie d f).others = s.others := rfl
@[simp] theorem State.mapDie_mem (d : Nat) (f : Die → Die) (s : State) : (s.mapDie d f).mem = s.mem := rfl
@[simp] theorem State.mapDie_dies (d : Nat) (f : Die → Die) (s : State) : (s.mapDie d f).dies = s.dies.setIfInBounds d (f (s.die d)) := rfl
@[simp] theorem State.mapDie_tick (d : Nat) (f : Die → Die) (s : State) : (s.mapDie d f).tick = s.tick := rfl
@[simp] theorem State.mapDie_kregbase (d : Nat) (f : Die → Die) (s : State) : (s.mapDie d f).kregbase = s.kregbase := rfl
@[simp] theorem State.mapDie_live (d : Nat) (f : Die → Die) (s : State) : (s.mapDie d f).live = s.live := rfl
@[simp] theorem State.mapDie_domains (d : Nat) (f : Die → Die) (s : State) : (s.mapDie d f).domains = s.domains := rfl
@[simp] theorem State.mapDie_preemptions (d : Nat) (f : Die → Die) (s : State) : (s.mapDie d f).preemptions = s.preemptions := rfl
@[simp] theorem State.mapDie_queues (d : Nat) (f : Die → Die) (s : State) : (s.mapDie d f).queues = s.queues := rfl
@[simp] theorem State.mapDie_dev (d : Nat) (f : Die → Die) (s : State) : (s.mapDie d f).dev = s.dev := rfl
@[simp] theorem State.mapDie_inputs (d : Nat) (f : Die → Die) (s : State) : (s.mapDie d f).inputs = s.inputs := rfl
@[simp] theorem State.mapDie_free (d : Nat) (f : Die → Die) (s : State) : (s.mapDie d f).free = s.free := rfl

@[simp] theorem State.retire_core  (s : State) : (s.retire).core = { s.core.endInstr with pc := s.core.pc + 4, instret := if bit s.core.csr.mcountinhibit 2 then s.core.instret else s.core.instret + 1 } := rfl
@[simp] theorem State.retire_others  (s : State) : (s.retire).others = s.others := rfl
@[simp] theorem State.retire_mem  (s : State) : (s.retire).mem = s.mem := rfl
@[simp] theorem State.retire_dies  (s : State) : (s.retire).dies = s.dies := rfl
@[simp] theorem State.retire_tick  (s : State) : (s.retire).tick = s.tick := rfl
@[simp] theorem State.retire_kregbase  (s : State) : (s.retire).kregbase = s.kregbase := rfl
@[simp] theorem State.retire_live  (s : State) : (s.retire).live = s.live := rfl
@[simp] theorem State.retire_domains  (s : State) : (s.retire).domains = s.domains := rfl
@[simp] theorem State.retire_preemptions  (s : State) : (s.retire).preemptions = s.preemptions := rfl
@[simp] theorem State.retire_queues  (s : State) : (s.retire).queues = s.queues := rfl
@[simp] theorem State.retire_dev  (s : State) : (s.retire).dev = s.dev := rfl
@[simp] theorem State.retire_inputs  (s : State) : (s.retire).inputs = s.inputs := rfl
@[simp] theorem State.retire_free  (s : State) : (s.retire).free = s.free := rfl

@[simp] theorem State.stall_core (s : State) : s.stall.core = { s.core with stalled := true } := rfl
@[simp] theorem State.stall_others (s : State) : s.stall.others = s.others := rfl
@[simp] theorem State.stall_mem (s : State) : s.stall.mem = s.mem := rfl
@[simp] theorem State.stall_dies (s : State) : s.stall.dies = s.dies := rfl
@[simp] theorem State.stall_tick (s : State) : s.stall.tick = s.tick := rfl
@[simp] theorem State.stall_kregbase (s : State) : s.stall.kregbase = s.kregbase := rfl
@[simp] theorem State.stall_live (s : State) : s.stall.live = s.live := rfl
@[simp] theorem State.stall_domains (s : State) : s.stall.domains = s.domains := rfl
@[simp] theorem State.stall_preemptions (s : State) : s.stall.preemptions = s.preemptions := rfl
@[simp] theorem State.stall_queues (s : State) : s.stall.queues = s.queues := rfl
@[simp] theorem State.stall_dev (s : State) : s.stall.dev = s.dev := rfl
@[simp] theorem State.stall_inputs (s : State) : s.stall.inputs = s.inputs := rfl
@[simp] theorem State.stall_free (s : State) : s.stall.free = s.free := rfl
@[simp] theorem State.x_stall (r : BitVec 5) (s : State) : s.stall.x r = s.x r := rfl
@[simp] theorem State.f_stall (r : BitVec 5) (s : State) : s.stall.f r = s.f r := rfl

@[simp] theorem State.setVstart_core (n : Nat) (s : State) : (s.setVstart n).core = { s.core with vec := { s.core.vec with kvstart := BitVec.ofNat 17 n } } := rfl
@[simp] theorem State.setVstart_others (n : Nat) (s : State) : (s.setVstart n).others = s.others := rfl
@[simp] theorem State.setVstart_mem (n : Nat) (s : State) : (s.setVstart n).mem = s.mem := rfl
@[simp] theorem State.setVstart_dies (n : Nat) (s : State) : (s.setVstart n).dies = s.dies := rfl
@[simp] theorem State.setVstart_tick (n : Nat) (s : State) : (s.setVstart n).tick = s.tick := rfl
@[simp] theorem State.setVstart_kregbase (n : Nat) (s : State) : (s.setVstart n).kregbase = s.kregbase := rfl
@[simp] theorem State.setVstart_live (n : Nat) (s : State) : (s.setVstart n).live = s.live := rfl
@[simp] theorem State.setVstart_domains (n : Nat) (s : State) : (s.setVstart n).domains = s.domains := rfl
@[simp] theorem State.setVstart_preemptions (n : Nat) (s : State) : (s.setVstart n).preemptions = s.preemptions := rfl
@[simp] theorem State.setVstart_queues (n : Nat) (s : State) : (s.setVstart n).queues = s.queues := rfl
@[simp] theorem State.setVstart_dev (n : Nat) (s : State) : (s.setVstart n).dev = s.dev := rfl
@[simp] theorem State.setVstart_inputs (n : Nat) (s : State) : (s.setVstart n).inputs = s.inputs := rfl
@[simp] theorem State.setVstart_free (n : Nat) (s : State) : (s.setVstart n).free = s.free := rfl

@[simp] theorem State.landAll_core  (s : State) : (s.landAll).core = { s.core with vec := { s.core.vec with full := BitVec.allOnes 32, inFlight := [] }, mat := { s.core.mat with slots := s.core.mat.slots.map SlotState.landed } } := rfl
@[simp] theorem State.landAll_others  (s : State) : (s.landAll).others = s.others := rfl
@[simp] theorem State.landAll_mem  (s : State) : (s.landAll).mem = s.mem := rfl
@[simp] theorem State.landAll_dies  (s : State) : (s.landAll).dies = s.dies := rfl
@[simp] theorem State.landAll_tick  (s : State) : (s.landAll).tick = s.tick := rfl
@[simp] theorem State.landAll_kregbase  (s : State) : (s.landAll).kregbase = s.kregbase := rfl
@[simp] theorem State.landAll_live  (s : State) : (s.landAll).live = s.live := rfl
@[simp] theorem State.landAll_domains  (s : State) : (s.landAll).domains = s.domains := rfl
@[simp] theorem State.landAll_preemptions  (s : State) : (s.landAll).preemptions = s.preemptions := rfl
@[simp] theorem State.landAll_queues  (s : State) : (s.landAll).queues = s.queues := rfl
@[simp] theorem State.landAll_dev  (s : State) : (s.landAll).dev = s.dev := rfl
@[simp] theorem State.landAll_inputs  (s : State) : (s.landAll).inputs = s.inputs := rfl
@[simp] theorem State.landAll_free  (s : State) : (s.landAll).free = s.free := rfl

@[simp] theorem State.leaveContext_core  (s : State) : (s.leaveContext).core = { s.core with dcache := [], reservation := none, sleep := none, begun := .no, stalled := false, inQv := false, raceSectors := [], mat := s.core.mat.abandon } := rfl
@[simp] theorem State.leaveContext_others  (s : State) : (s.leaveContext).others = s.others := rfl
@[simp] theorem State.leaveContext_mem  (s : State) : (s.leaveContext).mem = s.mem := rfl
@[simp] theorem State.leaveContext_dies  (s : State) : (s.leaveContext).dies = s.dies := rfl
@[simp] theorem State.leaveContext_tick  (s : State) : (s.leaveContext).tick = s.tick := rfl
@[simp] theorem State.leaveContext_kregbase  (s : State) : (s.leaveContext).kregbase = s.kregbase := rfl
@[simp] theorem State.leaveContext_live  (s : State) : (s.leaveContext).live = s.live := rfl
@[simp] theorem State.leaveContext_domains  (s : State) : (s.leaveContext).domains = s.domains := rfl
@[simp] theorem State.leaveContext_preemptions  (s : State) : (s.leaveContext).preemptions = s.preemptions := rfl
@[simp] theorem State.leaveContext_queues  (s : State) : (s.leaveContext).queues = s.queues := rfl
@[simp] theorem State.leaveContext_dev  (s : State) : (s.leaveContext).dev = s.dev := rfl
@[simp] theorem State.leaveContext_inputs  (s : State) : (s.leaveContext).inputs = s.inputs := rfl
@[simp] theorem State.leaveContext_free  (s : State) : (s.leaveContext).free = s.free := rfl

@[simp] theorem State.writePA_core (pa n v : Nat) (s : State) : (s.writePA pa n v).core = s.core := rfl
@[simp] theorem State.writePA_others (pa n v : Nat) (s : State) : (s.writePA pa n v).others = s.others := rfl
@[simp] theorem State.writePA_mem (pa n v : Nat) (s : State) : (s.writePA pa n v).mem = { s.mem with bytes := s.mem.bytes.write (canonical pa) n v } := rfl
@[simp] theorem State.writePA_dies (pa n v : Nat) (s : State) : (s.writePA pa n v).dies = s.dies := rfl
@[simp] theorem State.writePA_tick (pa n v : Nat) (s : State) : (s.writePA pa n v).tick = s.tick := rfl
@[simp] theorem State.writePA_kregbase (pa n v : Nat) (s : State) : (s.writePA pa n v).kregbase = s.kregbase := rfl
@[simp] theorem State.writePA_live (pa n v : Nat) (s : State) : (s.writePA pa n v).live = s.live := rfl
@[simp] theorem State.writePA_domains (pa n v : Nat) (s : State) : (s.writePA pa n v).domains = s.domains := rfl
@[simp] theorem State.writePA_preemptions (pa n v : Nat) (s : State) : (s.writePA pa n v).preemptions = s.preemptions := rfl
@[simp] theorem State.writePA_queues (pa n v : Nat) (s : State) : (s.writePA pa n v).queues = s.queues := rfl
@[simp] theorem State.writePA_dev (pa n v : Nat) (s : State) : (s.writePA pa n v).dev = s.dev := rfl
@[simp] theorem State.writePA_inputs (pa n v : Nat) (s : State) : (s.writePA pa n v).inputs = s.inputs := rfl
@[simp] theorem State.writePA_free (pa n v : Nat) (s : State) : (s.writePA pa n v).free = s.free := rfl

/-! ### Registers -/

@[simp] theorem State.setX_others (r : BitVec 5) (v : Word) (s : State) : (s.setX r v).others = s.others := by
  unfold State.setX; split <;> rfl
@[simp] theorem State.setX_mem (r : BitVec 5) (v : Word) (s : State) : (s.setX r v).mem = s.mem := by
  unfold State.setX; split <;> rfl
@[simp] theorem State.setX_dies (r : BitVec 5) (v : Word) (s : State) : (s.setX r v).dies = s.dies := by
  unfold State.setX; split <;> rfl
@[simp] theorem State.setX_tick (r : BitVec 5) (v : Word) (s : State) : (s.setX r v).tick = s.tick := by
  unfold State.setX; split <;> rfl
@[simp] theorem State.setX_kregbase (r : BitVec 5) (v : Word) (s : State) : (s.setX r v).kregbase = s.kregbase := by
  unfold State.setX; split <;> rfl
@[simp] theorem State.setX_live (r : BitVec 5) (v : Word) (s : State) : (s.setX r v).live = s.live := by
  unfold State.setX; split <;> rfl
@[simp] theorem State.setX_domains (r : BitVec 5) (v : Word) (s : State) : (s.setX r v).domains = s.domains := by
  unfold State.setX; split <;> rfl
@[simp] theorem State.setX_preemptions (r : BitVec 5) (v : Word) (s : State) : (s.setX r v).preemptions = s.preemptions := by
  unfold State.setX; split <;> rfl
@[simp] theorem State.setX_queues (r : BitVec 5) (v : Word) (s : State) : (s.setX r v).queues = s.queues := by
  unfold State.setX; split <;> rfl
@[simp] theorem State.setX_dev (r : BitVec 5) (v : Word) (s : State) : (s.setX r v).dev = s.dev := by
  unfold State.setX; split <;> rfl
@[simp] theorem State.setX_inputs (r : BitVec 5) (v : Word) (s : State) : (s.setX r v).inputs = s.inputs := by
  unfold State.setX; split <;> rfl
@[simp] theorem State.setX_free (r : BitVec 5) (v : Word) (s : State) : (s.setX r v).free = s.free := by
  unfold State.setX; split <;> rfl
@[simp] theorem State.setX_core_id (r : BitVec 5) (v : Word) (s : State) : (s.setX r v).core.id = s.core.id := by
  unfold State.setX; split <;> rfl
@[simp] theorem State.setX_core_run (r : BitVec 5) (v : Word) (s : State) : (s.setX r v).core.run = s.core.run := by
  unfold State.setX; split <;> rfl
@[simp] theorem State.setX_core_ir (r : BitVec 5) (v : Word) (s : State) : (s.setX r v).core.ir = s.core.ir := by
  unfold State.setX; split <;> rfl
@[simp] theorem State.setX_core_stopAt (r : BitVec 5) (v : Word) (s : State) : (s.setX r v).core.stopAt = s.core.stopAt := by
  unfold State.setX; split <;> rfl
@[simp] theorem State.setX_core_begun (r : BitVec 5) (v : Word) (s : State) : (s.setX r v).core.begun = s.core.begun := by
  unfold State.setX; split <;> rfl
@[simp] theorem State.setX_core_issued (r : BitVec 5) (v : Word) (s : State) : (s.setX r v).core.issued = s.core.issued := by
  unfold State.setX; split <;> rfl
@[simp] theorem State.setX_core_stalled (r : BitVec 5) (v : Word) (s : State) : (s.setX r v).core.stalled = s.core.stalled := by
  unfold State.setX; split <;> rfl
@[simp] theorem State.setX_core_inQv (r : BitVec 5) (v : Word) (s : State) : (s.setX r v).core.inQv = s.core.inQv := by
  unfold State.setX; split <;> rfl
@[simp] theorem State.setX_core_raceSectors (r : BitVec 5) (v : Word) (s : State) : (s.setX r v).core.raceSectors = s.core.raceSectors := by
  unfold State.setX; split <;> rfl
@[simp] theorem State.setX_core_sleep (r : BitVec 5) (v : Word) (s : State) : (s.setX r v).core.sleep = s.core.sleep := by
  unfold State.setX; split <;> rfl
@[simp] theorem State.setX_core_fregs (r : BitVec 5) (v : Word) (s : State) : (s.setX r v).core.fregs = s.core.fregs := by
  unfold State.setX; split <;> rfl
@[simp] theorem State.setX_core_frm (r : BitVec 5) (v : Word) (s : State) : (s.setX r v).core.frm = s.core.frm := by
  unfold State.setX; split <;> rfl
@[simp] theorem State.setX_core_fflags (r : BitVec 5) (v : Word) (s : State) : (s.setX r v).core.fflags = s.core.fflags := by
  unfold State.setX; split <;> rfl
@[simp] theorem State.setX_core_pc (r : BitVec 5) (v : Word) (s : State) : (s.setX r v).core.pc = s.core.pc := by
  unfold State.setX; split <;> rfl
@[simp] theorem State.setX_core_priv (r : BitVec 5) (v : Word) (s : State) : (s.setX r v).core.priv = s.core.priv := by
  unfold State.setX; split <;> rfl
@[simp] theorem State.setX_core_reservation (r : BitVec 5) (v : Word) (s : State) : (s.setX r v).core.reservation = s.core.reservation := by
  unfold State.setX; split <;> rfl
@[simp] theorem State.setX_core_cycle (r : BitVec 5) (v : Word) (s : State) : (s.setX r v).core.cycle = s.core.cycle := by
  unfold State.setX; split <;> rfl
@[simp] theorem State.setX_core_clock (r : BitVec 5) (v : Word) (s : State) : (s.setX r v).core.clock = s.core.clock := by
  unfold State.setX; split <;> rfl
@[simp] theorem State.setX_core_cyclePart (r : BitVec 5) (v : Word) (s : State) : (s.setX r v).core.cyclePart = s.core.cyclePart := by
  unfold State.setX; split <;> rfl
@[simp] theorem State.setX_core_instret (r : BitVec 5) (v : Word) (s : State) : (s.setX r v).core.instret = s.core.instret := by
  unfold State.setX; split <;> rfl
@[simp] theorem State.setX_core_dcache (r : BitVec 5) (v : Word) (s : State) : (s.setX r v).core.dcache = s.core.dcache := by
  unfold State.setX; split <;> rfl
@[simp] theorem State.setX_core_icache (r : BitVec 5) (v : Word) (s : State) : (s.setX r v).core.icache = s.core.icache := by
  unfold State.setX; split <;> rfl
@[simp] theorem State.setX_core_tlb (r : BitVec 5) (v : Word) (s : State) : (s.setX r v).core.tlb = s.core.tlb := by
  unfold State.setX; split <;> rfl
@[simp] theorem State.setX_core_vtlb (r : BitVec 5) (v : Word) (s : State) : (s.setX r v).core.vtlb = s.core.vtlb := by
  unfold State.setX; split <;> rfl
@[simp] theorem State.setX_core_csr (r : BitVec 5) (v : Word) (s : State) : (s.setX r v).core.csr = s.core.csr := by
  unfold State.setX; split <;> rfl
@[simp] theorem State.setX_core_stopCause (r : BitVec 5) (v : Word) (s : State) : (s.setX r v).core.stopCause = s.core.stopCause := by
  unfold State.setX; split <;> rfl
@[simp] theorem State.setX_core_redirect (r : BitVec 5) (v : Word) (s : State) : (s.setX r v).core.redirect = s.core.redirect := by
  unfold State.setX; split <;> rfl
@[simp] theorem State.setX_core_vec (r : BitVec 5) (v : Word) (s : State) : (s.setX r v).core.vec = s.core.vec := by
  unfold State.setX; split <;> rfl
@[simp] theorem State.setX_core_mat (r : BitVec 5) (v : Word) (s : State) : (s.setX r v).core.mat = s.core.mat := by
  unfold State.setX; split <;> rfl
@[simp] theorem State.setX_core_mt (r : BitVec 5) (v : Word) (s : State) : (s.setX r v).core.mt = s.core.mt := by
  unfold State.setX; split <;> rfl
@[simp] theorem State.setX_core_cont (r : BitVec 5) (v : Word) (s : State) : (s.setX r v).core.cont = s.core.cont := by
  unfold State.setX; split <;> rfl
@[simp] theorem State.setX_core_rampPending (r : BitVec 5) (v : Word) (s : State) : (s.setX r v).core.rampPending = s.core.rampPending := by
  unfold State.setX; split <;> rfl
@[simp] theorem State.setX_core_siding (r : BitVec 5) (v : Word) (s : State) : (s.setX r v).core.siding = s.core.siding := by
  unfold State.setX; split <;> rfl
@[simp] theorem State.setX_core_copies (r : BitVec 5) (v : Word) (s : State) : (s.setX r v).core.copies = s.core.copies := by
  unfold State.setX; split <;> rfl
@[simp] theorem State.setX_core_qc (r : BitVec 5) (v : Word) (s : State) : (s.setX r v).core.qc = s.core.qc := by
  unfold State.setX; split <;> rfl
@[simp] theorem State.setX_core_power (r : BitVec 5) (v : Word) (s : State) : (s.setX r v).core.power = s.core.power := by
  unfold State.setX; split <;> rfl
@[simp] theorem State.setX_core_krace (r : BitVec 5) (v : Word) (s : State) : (s.setX r v).core.krace = s.core.krace := by
  unfold State.setX; split <;> rfl
@[simp] theorem State.setX_core_khintdrop (r : BitVec 5) (v : Word) (s : State) : (s.setX r v).core.khintdrop = s.core.khintdrop := by
  unfold State.setX; split <;> rfl
@[simp] theorem State.setX_core_phase (r : BitVec 5) (v : Word) (s : State) : (s.setX r v).core.phase = s.core.phase := by
  unfold State.setX; split <;> rfl
@[simp] theorem State.setX_core_lastBump (r : BitVec 5) (v : Word) (s : State) : (s.setX r v).core.lastBump = s.core.lastBump := by
  unfold State.setX; split <;> rfl
@[simp] theorem State.setX_core_converted (r : BitVec 5) (v : Word) (s : State) : (s.setX r v).core.converted = s.core.converted := by
  unfold State.setX; split <;> rfl
@[simp] theorem State.setX_core_drain (r : BitVec 5) (v : Word) (s : State) : (s.setX r v).core.drain = s.core.drain := by
  unfold State.setX; split <;> rfl
@[simp] theorem State.setX_core_storageErrors (r : BitVec 5) (v : Word) (s : State) : (s.setX r v).core.storageErrors = s.core.storageErrors := by
  unfold State.setX; split <;> rfl
@[simp] theorem State.setX_core_laneErrors (r : BitVec 5) (v : Word) (s : State) : (s.setX r v).core.laneErrors = s.core.laneErrors := by
  unfold State.setX; split <;> rfl
@[simp] theorem State.setX_core_pendingRetire (r : BitVec 5) (v : Word) (s : State) : (s.setX r v).core.pendingRetire = s.core.pendingRetire := by
  unfold State.setX; split <;> rfl
@[simp] theorem State.setX_core_reported (r : BitVec 5) (v : Word) (s : State) : (s.setX r v).core.reported = s.core.reported := by
  unfold State.setX; split <;> rfl

@[simp] theorem State.x_zero (s : State) : s.x 0#5 = 0#64 := rfl

/-- Two states with the same register file read the same x registers. -/
theorem State.x_congr {s t : State} (h : t.core.regs = s.core.regs) (r : BitVec 5) : t.x r = s.x r := by
  simp [State.x, h]

@[simp] theorem State.setX_zero (v : Word) (s : State) : s.setX 0#5 v = s := rfl

theorem State.x_setX_self {r : BitVec 5} (h : r ≠ 0) (v : Word) (s : State) : (s.setX r v).x r = v := by
  have h' : ¬r = 0#5 := h
  simp [State.x, State.setX, h']

theorem State.x_setX_other {r q : BitVec 5} (h : q ≠ r) (v : Word) (s : State) : (s.setX r v).x q = s.x q := by
  by_cases hr : r = 0#5
  · subst hr; simp
  · have : r.toNat ≠ q.toNat := fun e => h (BitVec.eq_of_toNat_eq e.symm)
    simp [State.x, State.setX, hr, this]

@[simp] theorem State.x_retire (r : BitVec 5) (s : State) : s.retire.x r = s.x r := rfl

@[simp] theorem State.f_retire (r : BitVec 5) (s : State) : s.retire.f r = s.f r := rfl

theorem State.f_setF_self (r : BitVec 5) (v : Word32) (s : State) : (s.setF r v).f r = v := by
  simp [State.f, State.setF]

theorem State.f_setF_other {r q : BitVec 5} (h : q ≠ r) (v : Word32) (s : State) : (s.setF r v).f q = s.f q := by
  have : r.toNat ≠ q.toNat := fun e => h (BitVec.eq_of_toNat_eq e.symm)
  simp [State.f, State.setF, this]

@[simp] theorem State.x_setF (r q : BitVec 5) (v : Word32) (s : State) : (s.setF r v).x q = s.x q := rfl

@[simp] theorem State.f_setX (r q : BitVec 5) (v : Word) (s : State) : (s.setX r v).f q = s.f q := by
  simp [State.f]

/-! ### Dies, clusters and cores -/

theorem State.die_mapDie_self {d : Nat} (h : d < 24) (f : Die → Die) (s : State) : (s.mapDie d f).die d = f (s.die d) := by
  simp [State.die, State.mapDie, h]

theorem State.die_mapDie_other {d e : Nat} (h : e ≠ d) (f : Die → Die) (s : State) : (s.mapDie d f).die e = s.die e := by
  simp [State.die, State.mapDie, Ne.symm h]

theorem State.cluster_mapCluster_self {k : Nat} (h : k < 192) (f : Cluster → Cluster) (s : State) :
    (s.mapCluster k f).cluster k = f (s.cluster k) := by
  have h1 : k / 8 < 24 := by omega
  have h2 : k % 8 < 8 := by omega
  rw [State.mapCluster, State.cluster, State.die_mapDie_self h1]
  simp [h2]

theorem State.cluster_mapCluster_other {k j : Nat} (h : j ≠ k) (f : Cluster → Cluster) (s : State) :
    (s.mapCluster k f).cluster j = s.cluster j := by
  rw [State.mapCluster, State.cluster]
  conv => rhs; rw [State.cluster]
  by_cases hd : j / 8 = k / 8
  · by_cases hb : k / 8 < 24
    · rw [hd, State.die_mapDie_self hb]
      have : k % 8 ≠ j % 8 := by omega
      simp [this]
    · rw [hd]
      simp [State.die, State.mapDie, hb]
  · rw [State.die_mapDie_other hd]

theorem State.coreOf_focus (s : State) : s.coreOf s.core.id = s.core := by simp [State.coreOf]

theorem State.updCore_focus (f : Core → Core) (s : State) : s.updCore s.core.id f = s.mapCore f := by
  simp [State.updCore, State.mapCore]

/-- A core has the number it is asked for by. -/
theorem State.coreOf_id (s : State) (c : Nat) : (s.coreOf c).id = c := by
  unfold State.coreOf
  split
  · assumption
  · cases h : s.others.find? fun k => k.id = c with
    | none => rfl
    | some k => simpa using List.find?_some h

theorem State.coreOf_updCore_self {c : Nat} {f : Core → Core} {s : State} (hf : (f (s.coreOf c)).id = c) :
    (s.updCore c f).coreOf c = f (s.coreOf c) := by
  by_cases h : s.core.id = c
  · have e : s.coreOf c = s.core := by simp [State.coreOf, h]
    rw [e] at hf ⊢
    simp [State.updCore, State.coreOf, h, hf]
  · simp [State.updCore, State.coreOf, h]
    simp [State.coreOf, h] at hf
    simp [hf]

end Sys2Proof.Machine
end

