-- ==== Sys2Proof/Laws/Memory.lean ====
section
/-! SUPPORT. Physical memory: what one byte and a few bytes read after a write, the canonical form under every operation of
the memory system, and what the checks and the accesses built on them do. -/

namespace Sys2Proof.Machine

/-! ### The canonical form -/

theorem State.Inv.of_bytes {s t : State} (h : t.mem.bytes = s.mem.bytes) (w : s.Inv) : t.Inv := by
  unfold State.Inv
  rw [h]
  exact w

theorem State.reset_inv : State.reset.Inv := rfl

theorem State.Inv.writePA {s : State} (w : s.Inv) (pa n v : Nat) : (s.writePA pa n v).Inv :=
  ByteMap.wf_write w _ _ _

theorem State.Inv.putHost {s : State} (w : s.Inv) (a : Nat) (bs : List Byte) : (s.putHost a bs).Inv :=
  ByteMap.wf_writeBytes w _ _

theorem ByteMap.wf_foldl_set {l : List Host.Cell} (f : Host.Cell → Nat) {b : ByteMap} (w : b.wf = true) :
    (l.foldl (fun b c => b.set (f c) c.2) b).wf = true := by
  induction l generalizing b with
  | nil => exact w
  | cons c l ih => exact ih (ByteMap.wf_set w _ _)

theorem State.Inv.putHostMap {s : State} (w : s.Inv) (a n : Nat) (src : ByteMap) : (s.putHostMap a n src).Inv :=
  ByteMap.wf_foldl_set _ (ByteMap.wf_clear w _ _)

theorem State.Inv.zeroPage {s : State} (w : s.Inv) (base bits : Nat) : (s.mapMem (MemState.zeroPage base bits)).Inv :=
  ByteMap.wf_filter w _

theorem State.Inv.orLeaf {s : State} (w : s.Inv) (agent : Option Nat) (e : TlbEntry) (b : Word) : (s.orLeaf agent e b).Inv :=
  w.writePA _ _ _

theorem State.Inv.revive {s : State} (w : s.Inv) (agent g : Option Nat) (d : Discard) : (s.revive agent g d).Inv :=
  (w.zeroPage d.base d.bits).writePA d.pteAddr 8 _

theorem State.Inv.reviveAt {s : State} (w : s.Inv) (agent g : Option Nat) (pa : Nat) : (s.reviveAt agent g pa).Inv := by
  unfold State.reviveAt
  split
  · exact w
  · exact w.revive _ _ _

theorem State.Inv.deviceWrite {s : State} (w : s.Inv) (pa n v : Nat) : (s.deviceWrite pa n v).Inv :=
  (w.reviveAt none none pa).writePA pa n v

/-- A change of where translations are kept changes no byte. -/
@[simp] theorem State.setTranslations_bytes (v : Translator) (l : List TlbEntry) (s : State) :
    (s.setTranslations v l).mem.bytes = s.mem.bytes := by
  cases v <;> rfl

theorem State.Inv.setDirty {s : State} (w : s.Inv) (v : Translator) (e : TlbEntry) : (s.setDirty v e).Inv :=
  State.Inv.of_bytes (State.setTranslations_bytes ..) (w.orLeaf _ e 0x80#64)

theorem State.Inv.reviveFor {s : State} (w : s.Inv) (agent : Option Nat) (leaf : Option TlbEntry) (pa : Nat) :
    (s.reviveFor agent leaf pa).Inv := by
  unfold State.reviveFor
  split
  · exact w.revive _ _ _
  · exact w.reviveAt _ _ _

theorem State.Inv.dirtyPage {s : State} (w : s.Inv) (agent : Option Nat) (x : Xlated) : (s.dirtyPage agent x).Inv := by
  unfold State.dirtyPage
  split
  · split
    · exact w.reviveFor _ _ _
    · exact (w.setDirty _ _).reviveFor _ _ _
  · exact w.reviveFor _ _ _

/-! ### Operations that leave every byte -/

@[simp] theorem MemState.untag_bytes (pa : Nat) (m : MemState) : (m.untag pa).bytes = m.bytes := rfl

@[simp] theorem MemState.tag_bytes (pa w : Nat) (p : BitVec 16) (m : MemState) : (m.tag pa w p).bytes = m.bytes := rfl

@[simp] theorem MemState.heal_bytes (pa : Nat) (m : MemState) : (m.heal pa).bytes = m.bytes := rfl

@[simp] theorem MemState.spoil_bytes (pa : Nat) (m : MemState) : (m.spoil pa).bytes = m.bytes := rfl

@[simp] theorem MemState.spillPush_bytes (e : SpillEntry) (m : MemState) : (m.spillPush e).bytes = m.bytes := by
  unfold MemState.spillPush
  split
  · split <;> rfl
  · rfl

@[simp] theorem MemState.refill_bytes (l : Nat) (m : MemState) : (m.refill l).bytes = m.bytes := by
  unfold MemState.refill
  split <;> rfl

@[simp] theorem State.evict_bytes (l k : Nat) (s : State) : (s.evict l k).mem.bytes = s.mem.bytes := by
  simp only [State.evict, State.mapMem]
  split
  · rfl
  · rw [MemState.spillPush_bytes]

@[simp] theorem State.touchFor_bytes (g : Option Nat) (pa : Nat) (hint : LineClass) (w : Bool) (s : State) :
    (s.touchFor g pa hint w).mem.bytes = s.mem.bytes := by
  unfold State.touchFor
  split
  · rfl
  · dsimp only
    split
    · rfl
    · split
      · simp
      · split
        · simp
        · exact MemState.refill_bytes _ _

@[simp] theorem State.touch_bytes (pa : Nat) (hint : LineClass) (w : Bool) (s : State) :
    (s.touch pa hint w).mem.bytes = s.mem.bytes := State.touchFor_bytes _ _ _ _ _

@[simp] theorem State.loseReservations_mem (a : Option Nat) (gone : Nat → Bool) (s : State) :
    (s.loseReservations a gone).mem = s.mem := rfl

@[simp] theorem State.breakReservations_mem (a : Option Nat) (pa : Nat) (s : State) :
    (s.breakReservations a pa).mem = s.mem := rfl

@[simp] theorem State.useHostPage_mem (pa : Nat) (s : State) : (s.useHostPage pa).mem = s.mem := by
  unfold State.useHostPage
  split <;> rfl

@[simp] theorem State.dropLeaf_bytes (a : Nat) (s : State) : (s.dropLeaf a).mem.bytes = s.mem.bytes := rfl

@[simp] theorem State.setX_bytes (r : BitVec 5) (v : Word) (s : State) : (s.setX r v).mem.bytes = s.mem.bytes := by simp

/-- Equal bytes are the same memory. -/
theorem SameMemory.of_bytes {s t : State} (h : t.mem.bytes = s.mem.bytes) : SameMemory s t := fun a => by
  simp [State.byteAt, State.readPA, h]

theorem SameMemory.refl (s : State) : SameMemory s s := fun _ => rfl

theorem SameMemory.trans {s t u : State} (h : SameMemory s t) (k : SameMemory t u) : SameMemory s u :=
  fun a => (k a).trans (h a)

/-! ### Reading what was written -/

theorem State.byteAt_eq (s : State) (a : Nat) : s.byteAt a = (s.mem.bytes.get (canonical a)).toNat := by
  simp [State.byteAt, State.readPA, ByteMap.read]

theorem State.readPA_writePA_self {s : State} (w : s.Inv) (pa n v : Nat) :
    (s.writePA pa n v).readPA pa n = v % 256 ^ n :=
  ByteMap.read_write_self w _ _ _

theorem State.readPA_writePA_apart {s : State} (w : s.Inv) {pa n q k : Nat} (v : Nat) (h : Apart q k pa n) :
    (s.writePA pa n v).readPA q k = s.readPA q k :=
  ByteMap.read_write_other w _ _ _ _ _ h

/-- A write changes no byte outside its own. -/
theorem State.memoryOutside_writePA {s : State} (w : s.Inv) (pa n v : Nat) : MemoryOutside pa n s (s.writePA pa n v) := by
  intro a h
  rw [State.byteAt_eq, State.byteAt_eq]
  show (ByteMap.get (s.mem.bytes.write (canonical pa) n v) (canonical a)).toNat = _
  rw [ByteMap.get_write_other w _ _ _ h]

theorem State.deviceWrite_bytes (pa n v : Nat) (s : State) :
    (s.deviceWrite pa n v).mem.bytes = (s.reviveAt none none pa).mem.bytes.write (canonical pa) n v := rfl

/-- A write by the device where no page is discarded. -/
theorem State.reviveAt_none {s : State} (h : s.mem.discards = []) (agent g : Option Nat) (pa : Nat) :
    s.reviveAt agent g pa = s := by
  simp [State.reviveAt, State.discardAt, h]

/-- Such a write changes bytes, the tags of its sector and reservations at it alone (R282, R292). -/
theorem State.deviceWrite_none {s : State} (h : s.mem.discards = []) (pa n v : Nat) :
    s.deviceWrite pa n v = ((s.writePA pa n v).mapMem (MemState.untag pa)).breakReservations none pa := by
  simp [State.deviceWrite, State.reviveAt_none h]

/-- An address in window 0, 2 or 3, or above them, stands for itself (R177). -/
theorem canonical_local {pa : Nat} (h : window pa ≠ 1) : canonical pa = pa := by simp [canonical, h]

/-! ### Walks -/

/-- Two virtual addresses of one 64 KiB page: the same entry at each level, and the same page at each size (R183). -/
abbrev SamePage (a b : Word) : Prop :=
  (∀ l < 3, levelIndex a l = levelIndex b l) ∧ ∀ l < 3, a.toNat / 2 ^ leafBits l = b.toNat / 2 ^ leafBits l

/-- A walk reads the same entries and finds the same leaf for every address of a page. -/
theorem State.walkFrom_samePage {s : State} {sp : Space} {a b : Word} (h : SamePage a b) (fuel level table : Nat)
    (hl : level + fuel ≤ 3) (trail : List WalkEntry) :
    s.walkFrom sp a fuel level table trail = s.walkFrom sp b fuel level table trail := by
  induction fuel generalizing level table trail with
  | zero => rfl
  | succ n ih =>
    have l3 : level < 3 := by omega
    simp only [State.walkFrom, h.1 level l3, h.2 level l3, fun t tr => ih (level + 1) t (by omega) tr]

theorem State.walk_samePage {s : State} {sp : Space} {a b : Word} (h : SamePage a b) : s.walk sp a = s.walk sp b :=
  State.walkFrom_samePage h 3 0 _ (by omega) []

theorem State.walkReads_samePage {s : State} {sp : Space} {a b : Word} (h : SamePage a b) (fuel level table : Nat)
    (hl : level + fuel ≤ 3) : s.walkReads sp a fuel level table = s.walkReads sp b fuel level table := by
  induction fuel generalizing level table with
  | zero => rfl
  | succ n ih =>
    have l3 : level < 3 := by omega
    simp only [State.walkReads, h.1 level l3, fun t => ih (level + 1) t (by omega)]

theorem State.walked_samePage {s : State} {sp : Space} {a b : Word} (h : SamePage a b) : s.walked sp a = s.walked sp b :=
  State.walkReads_samePage h 3 0 _ (by omega)

/-- Without translation the page-sorting unit has nothing to do (R182, R187). -/
theorem State.sortPages_physical {s : State} {sp : Space} (h : sp.priv = .machine) (acc : Acc) (vas : List Word) :
    s.sortPages sp acc vas = s := by
  have keep : ∀ (t : State) (va : Word), t.keepPage sp (s.resolve sp acc va) = t := by
    intro t va
    unfold State.resolve
    simp only [h, decide_true, Bool.true_or, ↓reduceIte]
    split <;> rfl
  have walk : s.vectorWalk sp vas = s := by simp [State.vectorWalk, h]
  unfold State.sortPages
  rw [walk]
  clear walk
  induction vas with
  | nil => rfl
  | cons va vas ih => simpa only [List.foldl_cons, keep] using ih

/-! ### The checks of an access -/

theorem checkTag_clear {s : State} {agent pa : Nat} {write : Bool} {va : Word}
    (h : isHost pa = true ∨ s.conflict agent pa = none) : checkTag agent pa write va s = .ok () s := by
  unfold checkTag
  rcases h with h | h
  · simp [h]
  · by_cases k : isHost pa <;> simp [h, k]

theorem checkHostPage_device {s : State} {acc : Acc} {pa : Nat} {va : Word} (h : isHost pa = false) :
    checkHostPage acc pa va s = .ok () s := by
  simp [checkHostPage, h]

/-- A plain read of memory that nothing stands in the way of (R189, R282, R376). -/
theorem readAt_clear {s : State} {x : Xlated} {va : Word} {n agent : Nat} {hint : LineClass} (hd : x.discarded = false)
    (hh : checkHostPage .load x.pa va s = .ok () s) (hp : s.poisoned x.pa = false)
    (hc : isHost x.pa = true ∨ ((s.touch x.pa hint false).useHostPage x.pa).conflict agent x.pa = none) :
    readAt agent x va n hint s = .ok (s.readPA x.pa n) ((s.touch x.pa hint false).useHostPage x.pa) := by
  simp [readAt, hd, hh, State.spoiled, hp, checkTag_clear hc, State.readPA]

/-- Every way in which a scalar load ends: misaligned, not translated, of a discarded page, served by the data cache, or by
the access to memory and the fill that follows it (R55, R56, R60, R189). -/
theorem scalarLoad_cases (va : Word) (n : Nat) (s : State) :
    scalarLoad va n s =
      if va.toNat % n ≠ 0 then .error (.trap 4 va) s
      else match translate s.dataSpace .load .none va s with
        | .error e t => .error e t
        | .ok x t =>
          if x.discarded then .ok 0 t
          else match (t.core.dataLine x.pa).filter (CacheLine.serves x.pa) with
            | some l => .ok (l.data.read (canonical x.pa) n) t
            | none => match readAt t.core.id x va n .normal t with
              | .error e u => .error e u
              | .ok v u => .ok v (u.fillData x.pa) := by
  unfold scalarLoad
  by_cases h : va.toNat % n ≠ 0
  · simp [h]
  · simp only [ne_eq, Decidable.not_not] at h
    simp only [h, ne_eq, not_true_eq_false, if_false, bind_run, get_run]
    cases translate s.dataSpace .load .none va s with
    | error e t => rfl
    | ok x t =>
      dsimp only
      by_cases hd : x.discarded = true
      · simp [hd]
      · simp only [hd]
        cases hl : (t.core.dataLine x.pa).filter (CacheLine.serves x.pa) with
        | some l => simp [hl]
        | none =>
          cases hr : readAt t.core.id x va n .normal t <;> simp [hl, hr]

end Sys2Proof.Machine
end

