-- ==== Sys2Proof/Laws/Operands.lean ====
section
/-! SUPPORT. The vector operands: what the checks before the first element come to, what an uninterrupted pass writes, and
what one element or one mask bit reads after a write. -/

namespace Sys2Proof.Machine

/-! ### The checks -/

theorem checkLaneChange_ok {s : State} (h : s.core.vec.cfg.vlx = false) : checkLaneChange s = .ok () s := by
  simp [checkLaneChange, h]

/-- A pending lane change raises cause 31 and is then no longer pending (R110). -/
theorem checkLaneChange_pending {s : State} (h : s.core.vec.cfg.vlx = true) :
    checkLaneChange s =
      .error (.trap 31 0) (s.mapVec fun v => { v with cfg := { v.cfg with vlx := false } }) := by
  simp [checkLaneChange, h]

theorem checkMode_ok {s : State} {m : LaneMode} (h : s.core.mat.mode = m) : checkMode m s = .ok () s := by
  simp [checkMode, h]

theorem checkMode_wrong {s : State} {m : LaneMode} (h : s.core.mat.mode ≠ m) :
    checkMode m s = .error (.trap 25 0) s := by
  simp [checkMode, h]

theorem enterQv_quiet {s : State} (h : s.core.power.quietLoad = 0) : enterQv s = .ok () s.enteredQv := by
  simp [enterQv, State.enteredQv, h]

theorem checkFull_ok {s : State} {reads writes : List Nat} (h : (reads ++ writes).all s.isFull = true) :
    checkFull reads writes s = .ok () s := by
  have hn : (reads.find? fun r => !s.isFull r && s.core.vec.kvfe.getLsbD r) = none := by
    simp only [List.find?_eq_none]
    intro r hr
    have := List.all_eq_true.mp h r (List.mem_append_left _ hr)
    simp [this]
  simp only [checkFull, bind_run, get_run, hn, h, awaitLoads_true]

/-- A read of an empty register whose kvfe bit is one raises cause 26 with the number of the first such register (R99). -/
theorem checkFull_empty {s : State} {reads writes : List Nat} {r : Nat}
    (h : (reads.find? fun r => !s.isFull r && s.core.vec.kvfe.getLsbD r) = some r) :
    checkFull reads writes s = .error (.trap 26 (BitVec.ofNat 64 r)) s := by
  simp [checkFull, h]

@[simp] theorem State.enteredQv_isFull (s : State) (r : Nat) : s.enteredQv.isFull r = s.isFull r := rfl

@[simp] theorem State.enteredQv_vec (s : State) : s.enteredQv.core.vec = s.core.vec := rfl

/-- What lets a vector instruction begin takes it to its pass (R41, R99, R108, R110). -/
theorem beginVector_ready {s : State} {reads writes : List Nat} (h : VectorReady s reads writes) :
    beginVector true reads writes s = .ok () s.enteredQv := by
  obtain ⟨hn, hx, hm, hq, hf, -⟩ := h
  have hf' : (reads ++ writes).all s.enteredQv.isFull = true := hf
  simp only [beginVector, bind_run, get_run, hn, Bool.and_self, require_true, checkLaneChange_ok hx, checkMode_ok hm,
    enterQv_quiet hq, checkFull_ok hf']

/-- A vector instruction whose registers are refused raises cause 2 (R108). -/
theorem beginVector_refused {s : State} {ok : Bool} {reads writes : List Nat}
    (h : (ok && s.namesOk (reads ++ writes)) = false) :
    beginVector ok reads writes s = .error (.trap 2 (s.core.ir.setWidth 64)) s := by
  simp [beginVector, h]

/-! ### Passes -/

/-- A pass that nothing interrupts is the whole pass (R106, R107). -/
theorem elementwise_whole {geo : Geometry} {d : Dest} {f : Nat → ElementResult} {s : State} (h : s.core.stopAt = none) :
    elementwise geo d f s = .ok () (s.pass geo d f) := by
  simp only [elementwise, State.pass, bind_run, get_run]
  split
  · rfl
  · simp [State.stopPoint, h]

theorem wholesale_whole {geo : Geometry} {d : Dest} {n : Nat} {f : Nat → ElementResult} {s : State} :
    wholesale geo d n f s = .ok () (s.passAll geo d n f) := by
  simp only [wholesale, State.passAll, bind_run, get_run]
  split <;> rfl

/-- A vector instruction whose checks pass and whose pass completes retires. -/
theorem vectorOp_ready {ok : State → Bool} {reads writes : State → List Nat} {pass : State → Exec Unit} {s t : State}
    (hok : ok s = true) (h : VectorReady s (reads s) (writes s)) (hp : pass s.enteredQv s.enteredQv = .ok () t) :
    vectorOp ok reads writes pass s = .next t.retire := by
  apply retiring_ok
  simp only [bind_run, get_run, hok, beginVector_ready h, hp]

/-- A vector instruction whose fields its entry refuses raises cause 2. -/
theorem vectorOp_refused {ok : State → Bool} {reads writes : State → List Nat} {pass : State → Exec Unit} {s : State}
    (h : ok s = false) : vectorOp ok reads writes pass s = .next (s.takeTrap 2 (s.core.ir.setWidth 64)) := by
  apply retiring_trap
  simp [beginVector, h]

/-! ### Elements -/

theorem VecState.slice_putBytes_self {v : VecState} {geo : Geometry} {lane off n val : Nat} (h : lane < 128) :
    (v.putBytes geo lane off n val).slice lane = (v.slice lane).write off n val := by
  simp [VecState.putBytes, VecState.slice, h]

theorem VecState.slice_putBytes_other {v : VecState} {geo : Geometry} {lane l off n val : Nat} (h : l ≠ lane) :
    (v.putBytes geo lane off n val).slice l = v.slice l := by
  simp [VecState.putBytes, VecState.slice, Ne.symm h]

/-- A write in a lane slice keeps every slice in canonical form. -/
theorem VecState.wf_putBytes {v : VecState} {geo : Geometry} {lane off n val : Nat}
    (w : ∀ l, (v.slice l).wf = true) (l : Nat) : ((v.putBytes geo lane off n val).slice l).wf = true := by
  by_cases h : l = lane
  · subst h
    by_cases hl : l < 128
    · rw [VecState.slice_putBytes_self hl]
      exact ByteMap.wf_write (w l) _ _ _
    · have : (v.putBytes geo l off n val).slice l = [] := by simp [VecState.putBytes, VecState.slice, hl]
      rw [this]
      rfl
  · rw [VecState.slice_putBytes_other h]
    exact w l

/-- The lane of an element of a good geometry exists. -/
theorem Geometry.lane_lt {geo : Geometry} (h : geo.Good) (i : Nat) : geo.lane i < 128 := by
  obtain ⟨-, hg, hle, -, hl⟩ := h
  have hi : i % geo.g < geo.lanes.length := Nat.lt_of_lt_of_le (Nat.mod_lt _ hg) hle
  have e : geo.lane i = geo.lanes[i % geo.g] := by simp [Geometry.lane, hi]
  rw [e]
  exact hl _ (List.getElem_mem hi)

/-- Two elements lie in one lane only at the same position among the granted lanes. -/
theorem Geometry.lane_inj {geo : Geometry} (h : geo.Good) {i j : Nat} (e : geo.lane i = geo.lane j) :
    i % geo.g = j % geo.g := by
  obtain ⟨-, hg, hle, hn, -⟩ := h
  have hi : i % geo.g < geo.lanes.length := Nat.lt_of_lt_of_le (Nat.mod_lt _ hg) hle
  have hj : j % geo.g < geo.lanes.length := Nat.lt_of_lt_of_le (Nat.mod_lt _ hg) hle
  simp only [Geometry.lane, List.getD_eq_getElem?_getD, List.getElem?_eq_getElem hi, List.getElem?_eq_getElem hj,
    Option.getD_some] at e
  have hp := List.pairwise_iff_getElem.mp hn
  rcases Nat.lt_trichotomy (i % geo.g) (j % geo.g) with h | h | h
  · exact absurd e (hp _ _ hi hj h)
  · exact h
  · exact absurd e.symm (hp _ _ hj hi h)

/-- An element of whole bytes reads back as it was written. -/
theorem VecState.elem_putElem_self {v : VecState} {geo : Geometry} (hg : geo.Good) (w : ∀ l, (v.slice l).wf = true)
    {width : Nat} (h4 : width ≠ 4) (r i val : Nat) :
    (v.putElem geo width r i val).elem geo width r i = val % 256 ^ (width / 8) := by
  simp only [VecState.elem, VecState.putElem, h4, if_false]
  rw [VecState.slice_putBytes_self (Geometry.lane_lt hg i)]
  exact ByteMap.read_write_self (w _) _ _ _

/-- An element in another lane, or at other bytes of the same one, reads as before. -/
theorem VecState.elem_putElem_apart {v : VecState} {geo : Geometry} (hg : geo.Good) (w : ∀ l, (v.slice l).wf = true)
    {width wide : Nat} (h4 : width ≠ 4) (h4' : wide ≠ 4) {r q i j val : Nat}
    (h : geo.lane j ≠ geo.lane i ∨ geo.offset wide q j + wide / 8 ≤ geo.offset width r i ∨
      geo.offset width r i + width / 8 ≤ geo.offset wide q j) :
    (v.putElem geo width r i val).elem geo wide q j = v.elem geo wide q j := by
  simp only [VecState.elem, VecState.putElem, h4, h4', if_false]
  by_cases hl : geo.lane j = geo.lane i
  · rw [hl, VecState.slice_putBytes_self (Geometry.lane_lt hg i)]
    exact ByteMap.read_write_other (w _) _ _ _ _ _ (h.resolve_left fun k => k hl)
  · rw [VecState.slice_putBytes_other hl]

end Sys2Proof.Machine
end

