-- ==== Sys2Proof/Laws/Ops.lean ====
section
/-! SUPPORT. What the shared operations of Ops.lean do: an instruction that retires, waits or traps, one that writes an x
register and nothing else, and what taking a trap leaves. -/

namespace Sys2Proof.Machine

/-- Every step of an instruction is a next state: it retires from the state its body left, takes its trap there, or
waits. -/
theorem retiring_cases (m : Exec Unit) (s : State) :
    (∃ t, m s = .ok () t ∧ retiring m s = .next t.retire) ∨
      (∃ c v t, m s = .error (.trap c v) t ∧ retiring m s = .next (t.takeTrap c v)) ∨
        ∃ t, m s = .error .wait t ∧ retiring m s = .next t := by
  cases h : m s with
  | ok a t => exact .inl ⟨t, rfl, retiring_ok h⟩
  | error e t =>
    cases e with
    | trap c v => exact .inr (.inl ⟨c, v, t, rfl, retiring_trap h⟩)
    | wait => exact .inr (.inr ⟨t, rfl, retiring_wait h⟩)

/-- A step of an instruction never faults and never refuses. -/
theorem execute_next (m : Exec Unit) (s : State) : ∃ t, execute m s = .next t := ⟨_, rfl⟩

/-- Retiring moves pc past the instruction and counts it. -/
theorem retired_retire (s t : State) (hp : t.core.pc = s.core.pc) (hi : t.core.instret = s.core.instret)
    (hc : t.core.csr.mcountinhibit = s.core.csr.mcountinhibit) : Retired s t.retire := by
  simp [Retired, hp, hi, hc]

/-- A write of an x register before retirement changes nothing else. -/
theorem writesX_retire (rd : BitVec 5) (v : Word) (s : State) : WritesX rd v s (s.setX rd v).retire := by
  refine ⟨?_, ?_, ?_, ?_, ?_, ?_⟩
  · by_cases h : rd = 0
    · subst h; rfl
    · simp only [State.x_retire, State.x_setX_self h, h, if_false]
  · exact retired_retire _ _ (by simp) (by simp) (by simp)
  · intro r h
    rw [State.x_retire, State.x_setX_other h]
  · unfold State.setX
    split <;> rfl
  · unfold State.setX
    split <;> rfl
  · exact SameMemory.of_bytes (by simp)

/-- An instruction without another effect writes its register and retires. -/
theorem writing_writesX (rd : BitVec 5) (v : Word) (s : State) :
    ∃ t, writing rd v s = .next t ∧ WritesX rd v s t := ⟨_, rfl, writesX_retire rd v s⟩

/-- A body that only puts a value in a register. -/
theorem retiring_putX {m : Exec Unit} {s : State} {rd : BitVec 5} {v : Word} (h : m s = .ok () (s.setX rd v)) :
    ∃ t, retiring m s = .next t ∧ WritesX rd v s t := ⟨_, retiring_ok h, writesX_retire rd v s⟩

/-! ### Traps -/

@[simp] theorem State.enterSupervisor_mem (i : Bool) (c : Nat) (v : Word) (s : State) :
    (s.enterSupervisor i c v).mem = s.mem := rfl

@[simp] theorem State.enterMachine_mem (i : Bool) (c : Nat) (v : Word) (s : State) : (s.enterMachine i c v).mem = s.mem := rfl

/-- No entry but one past the nesting limit changes memory (R380). -/
theorem State.enter_mem {i : Bool} {c : Nat} {s : State} (h : s.overNested i c = false) (v : Word) :
    (s.enter i c v).mem = s.mem := by
  unfold State.enter
  rw [h]
  split <;> rfl

@[simp] theorem State.putHostMap_core (a n : Nat) (src : ByteMap) (s : State) : (s.putHostMap a n src).core = s.core := rfl

/-- Any number of changes that leave the core in focus leave it. -/
theorem State.foldl_core {f : State → Nat → State} (h : ∀ t d, (f t d).core = t.core) (l : List Nat) (s : State) :
    (l.foldl f s).core = s.core := by
  induction l generalizing s with
  | nil => rfl
  | cons d l ih => exact (ih _).trans (h _ _)

@[simp] theorem State.castRings_core (a : Nat) (s : State) : (s.castRings a).core = s.core := by
  unfold State.castRings
  exact State.foldl_core (fun _ _ => State.putHostMap_core ..) _ _

@[simp] theorem State.castSidings_core (a : Nat) (s : State) : (s.castSidings a).core = s.core := by
  unfold State.castSidings
  exact State.foldl_core (fun _ _ => State.putHostMap_core ..) _ _

@[simp] theorem State.castFree_core (a n : Nat) (s : State) : (s.castFree a n).core = s.core := by
  cases s
  rfl

@[simp] theorem State.castBody_core (s : State) : s.castBody.core = s.core := by
  simp only [State.castBody, State.castSidings_core, State.castFree_core, State.castRings_core]

@[simp] theorem State.writeCast_core (f : FatalCause) (s : State) : (s.writeCast f).core = s.core := by
  unfold State.writeCast
  dsimp only
  split
  · simp only [State.castBody_core, State.castFree_core]
  · simp only [State.castFree_core]

/-- A fatal error stops the core in focus and leaves the rest of it (R380). -/
@[simp] theorem State.fatal_core (f : FatalCause) (s : State) :
    (s.fatal f).core = { s.core with run := .halted } := by
  unfold State.fatal
  dsimp only
  rw [State.writeCast_core]
  rfl

@[simp] theorem State.enter_regs (i : Bool) (c : Nat) (v : Word) (s : State) : (s.enter i c v).core.regs = s.core.regs := by
  unfold State.enter
  split
  · rfl
  · split
    · rw [State.fatal_core]
      rfl
    · rfl

/-- A trap that `trapset` does not redirect is taken from the state in which every load has landed. -/
theorem State.takeTrap_direct {s : State} {c : Nat} (h : s.landAll.redirects c = false) (v : Word) :
    s.takeTrap c v = s.landAll.enter false c v := by
  simp [State.takeTrap, h]

/-- A trap that is not redirected and within the nesting limit changes no byte of memory and no x register. -/
theorem State.takeTrap_frame {s : State} {c : Nat} (h : s.landAll.redirects c = false)
    (n : s.landAll.overNested false c = false) (v : Word) :
    SameMemory s (s.takeTrap c v) ∧ (s.takeTrap c v).core.regs = s.core.regs := by
  rw [State.takeTrap_direct h]
  exact ⟨SameMemory.of_bytes (by simp [State.enter_mem n]), by simp⟩

/-- Outside user mode nothing is redirected (R352). -/
theorem State.redirects_privileged {s : State} (h : s.core.priv ≠ .user) (c : Nat) : s.redirects c = false := by
  cases hp : s.core.priv <;> simp_all [State.redirects]

/-- Where a trap is taken: supervisor mode where it is delegated, else machine mode (R328, R334). -/
theorem State.enter_priv (i : Bool) (c : Nat) (v : Word) (s : State) :
    (s.enter i c v).core.priv = if s.delegates i c then .supervisor else .machine := by
  unfold State.enter
  split
  · rfl
  · split
    · rw [State.fatal_core]
      rfl
    · rfl

/-! ### Micro-threads before a CSR access or a clock read -/

/-- Where no micro-thread is executing a word, none has one to complete (R63, R66). -/
theorem State.completeExecuting_none {s : State} (h : s.NoneExecuting) : s.completeExecuting = s := by
  have : (s.core.mt.threads.filter fun t => t.2.state == .executing) = [] := by
    rw [List.filter_eq_nil_iff]
    intro p hp
    simpa using h p hp
  simp [State.completeExecuting, this]

/-! ### Releases -/

/-- A release whose phase is free to move bumps it (R277). -/
theorem release_free {scope : Nat} {s : State} (hs : scope ≠ 0)
    (h : ∀ t, s.core.lastBump = some t → t + 40 ≤ s.tick) :
    release scope s = .ok () s.bumpPhase := by
  unfold release awaitRelease
  cases hb : s.core.lastBump with
  | none => simp [hs, hb, waitUntil]
  | some t =>
    have := h t hb
    simp [hs, hb, waitUntil, show ¬s.tick < t + 40 by omega]

/-- A release too soon after the last bump waits (R277). -/
theorem release_soon {scope t : Nat} {s : State} (hs : scope ≠ 0) (hb : s.core.lastBump = some t) (h : s.tick < t + 40) :
    release scope s = .error .wait s := by
  simp [release, awaitRelease, hs, hb, h, waitUntil]

end Sys2Proof.Machine
end

