-- ==== Sys2Proof/Laws/PerInstr.lean ====
section
/-! SUPPORT. Statements made for each instruction apart. Encodes: an instruction that is fetched has a word (02_encoding
R28 to R37); an event row has none and is no statement of this family. -/

namespace Sys2Proof.Laws

/-- An instruction that a fetch reads has an encoding. -/
def Encodes.Statement (i : Instr) : Prop := i.isEvent = false → (encode i).isSome = true

theorem Encodes.lui (rd : BitVec 5) (imm : BitVec 20) : Encodes.Statement (.lui rd imm) := fun _ => rfl

theorem Encodes.auipc (rd : BitVec 5) (imm : BitVec 20) : Encodes.Statement (.auipc rd imm) := fun _ => rfl

theorem Encodes.jal (rd : BitVec 5) (off : BitVec 20) : Encodes.Statement (.jal rd off) := fun _ => rfl

theorem Encodes.jalr (rd : BitVec 5) (rs1 : BitVec 5) (imm : BitVec 12) : Encodes.Statement (.jalr rd rs1 imm) :=
  fun _ => rfl

theorem Encodes.beq (rs1 : BitVec 5) (rs2 : BitVec 5) (off : BitVec 12) : Encodes.Statement (.beq rs1 rs2 off) :=
  fun _ => rfl

theorem Encodes.bne (rs1 : BitVec 5) (rs2 : BitVec 5) (off : BitVec 12) : Encodes.Statement (.bne rs1 rs2 off) :=
  fun _ => rfl

theorem Encodes.blt (rs1 : BitVec 5) (rs2 : BitVec 5) (off : BitVec 12) : Encodes.Statement (.blt rs1 rs2 off) :=
  fun _ => rfl

theorem Encodes.bge (rs1 : BitVec 5) (rs2 : BitVec 5) (off : BitVec 12) : Encodes.Statement (.bge rs1 rs2 off) :=
  fun _ => rfl

theorem Encodes.bltu (rs1 : BitVec 5) (rs2 : BitVec 5) (off : BitVec 12) : Encodes.Statement (.bltu rs1 rs2 off) :=
  fun _ => rfl

theorem Encodes.bgeu (rs1 : BitVec 5) (rs2 : BitVec 5) (off : BitVec 12) : Encodes.Statement (.bgeu rs1 rs2 off) :=
  fun _ => rfl

theorem Encodes.lb (rd : BitVec 5) (rs1 : BitVec 5) (imm : BitVec 12) : Encodes.Statement (.lb rd rs1 imm) := fun _ => rfl

theorem Encodes.lh (rd : BitVec 5) (rs1 : BitVec 5) (imm : BitVec 12) : Encodes.Statement (.lh rd rs1 imm) := fun _ => rfl

theorem Encodes.lw (rd : BitVec 5) (rs1 : BitVec 5) (imm : BitVec 12) : Encodes.Statement (.lw rd rs1 imm) := fun _ => rfl

theorem Encodes.ld (rd : BitVec 5) (rs1 : BitVec 5) (imm : BitVec 12) : Encodes.Statement (.ld rd rs1 imm) := fun _ => rfl

theorem Encodes.lbu (rd : BitVec 5) (rs1 : BitVec 5) (imm : BitVec 12) : Encodes.Statement (.lbu rd rs1 imm) :=
  fun _ => rfl

theorem Encodes.lhu (rd : BitVec 5) (rs1 : BitVec 5) (imm : BitVec 12) : Encodes.Statement (.lhu rd rs1 imm) :=
  fun _ => rfl

theorem Encodes.lwu (rd : BitVec 5) (rs1 : BitVec 5) (imm : BitVec 12) : Encodes.Statement (.lwu rd rs1 imm) :=
  fun _ => rfl

theorem Encodes.sb (rs1 : BitVec 5) (rs2 : BitVec 5) (imm : BitVec 12) : Encodes.Statement (.sb rs1 rs2 imm) :=
  fun _ => rfl

theorem Encodes.sh (rs1 : BitVec 5) (rs2 : BitVec 5) (imm : BitVec 12) : Encodes.Statement (.sh rs1 rs2 imm) :=
  fun _ => rfl

theorem Encodes.sw (rs1 : BitVec 5) (rs2 : BitVec 5) (imm : BitVec 12) : Encodes.Statement (.sw rs1 rs2 imm) :=
  fun _ => rfl

theorem Encodes.sd (rs1 : BitVec 5) (rs2 : BitVec 5) (imm : BitVec 12) : Encodes.Statement (.sd rs1 rs2 imm) :=
  fun _ => rfl

theorem Encodes.addi (rd : BitVec 5) (rs1 : BitVec 5) (imm : BitVec 12) : Encodes.Statement (.addi rd rs1 imm) :=
  fun _ => rfl

theorem Encodes.slti (rd : BitVec 5) (rs1 : BitVec 5) (imm : BitVec 12) : Encodes.Statement (.slti rd rs1 imm) :=
  fun _ => rfl

theorem Encodes.sltiu (rd : BitVec 5) (rs1 : BitVec 5) (imm : BitVec 12) : Encodes.Statement (.sltiu rd rs1 imm) :=
  fun _ => rfl

theorem Encodes.xori (rd : BitVec 5) (rs1 : BitVec 5) (imm : BitVec 12) : Encodes.Statement (.xori rd rs1 imm) :=
  fun _ => rfl

theorem Encodes.ori (rd : BitVec 5) (rs1 : BitVec 5) (imm : BitVec 12) : Encodes.Statement (.ori rd rs1 imm) :=
  fun _ => rfl

theorem Encodes.andi (rd : BitVec 5) (rs1 : BitVec 5) (imm : BitVec 12) : Encodes.Statement (.andi rd rs1 imm) :=
  fun _ => rfl

theorem Encodes.slli (rd : BitVec 5) (rs1 : BitVec 5) (shamt : BitVec 6) : Encodes.Statement (.slli rd rs1 shamt) :=
  fun _ => rfl

theorem Encodes.srli (rd : BitVec 5) (rs1 : BitVec 5) (shamt : BitVec 6) : Encodes.Statement (.srli rd rs1 shamt) :=
  fun _ => rfl

theorem Encodes.srai (rd : BitVec 5) (rs1 : BitVec 5) (shamt : BitVec 6) : Encodes.Statement (.srai rd rs1 shamt) :=
  fun _ => rfl

theorem Encodes.addiw (rd : BitVec 5) (rs1 : BitVec 5) (imm : BitVec 12) : Encodes.Statement (.addiw rd rs1 imm) :=
  fun _ => rfl

theorem Encodes.slliw (rd : BitVec 5) (rs1 : BitVec 5) (shamt : BitVec 5) : Encodes.Statement (.slliw rd rs1 shamt) :=
  fun _ => rfl

theorem Encodes.srliw (rd : BitVec 5) (rs1 : BitVec 5) (shamt : BitVec 5) : Encodes.Statement (.srliw rd rs1 shamt) :=
  fun _ => rfl

theorem Encodes.sraiw (rd : BitVec 5) (rs1 : BitVec 5) (shamt : BitVec 5) : Encodes.Statement (.sraiw rd rs1 shamt) :=
  fun _ => rfl

theorem Encodes.add (rd : BitVec 5) (rs1 : BitVec 5) (rs2 : BitVec 5) : Encodes.Statement (.add rd rs1 rs2) := fun _ => rfl

theorem Encodes.sll (rd : BitVec 5) (rs1 : BitVec 5) (rs2 : BitVec 5) : Encodes.Statement (.sll rd rs1 rs2) := fun _ => rfl

theorem Encodes.slt (rd : BitVec 5) (rs1 : BitVec 5) (rs2 : BitVec 5) : Encodes.Statement (.slt rd rs1 rs2) := fun _ => rfl

theorem Encodes.sltu (rd : BitVec 5) (rs1 : BitVec 5) (rs2 : BitVec 5) : Encodes.Statement (.sltu rd rs1 rs2) :=
  fun _ => rfl

theorem Encodes.xor (rd : BitVec 5) (rs1 : BitVec 5) (rs2 : BitVec 5) : Encodes.Statement (.xor rd rs1 rs2) := fun _ => rfl

theorem Encodes.srl (rd : BitVec 5) (rs1 : BitVec 5) (rs2 : BitVec 5) : Encodes.Statement (.srl rd rs1 rs2) := fun _ => rfl

theorem Encodes.or (rd : BitVec 5) (rs1 : BitVec 5) (rs2 : BitVec 5) : Encodes.Statement (.or rd rs1 rs2) := fun _ => rfl

theorem Encodes.and (rd : BitVec 5) (rs1 : BitVec 5) (rs2 : BitVec 5) : Encodes.Statement (.and rd rs1 rs2) := fun _ => rfl

theorem Encodes.sub (rd : BitVec 5) (rs1 : BitVec 5) (rs2 : BitVec 5) : Encodes.Statement (.sub rd rs1 rs2) := fun _ => rfl

theorem Encodes.sra (rd : BitVec 5) (rs1 : BitVec 5) (rs2 : BitVec 5) : Encodes.Statement (.sra rd rs1 rs2) := fun _ => rfl

theorem Encodes.mul (rd : BitVec 5) (rs1 : BitVec 5) (rs2 : BitVec 5) : Encodes.Statement (.mul rd rs1 rs2) := fun _ => rfl

theorem Encodes.mulh (rd : BitVec 5) (rs1 : BitVec 5) (rs2 : BitVec 5) : Encodes.Statement (.mulh rd rs1 rs2) :=
  fun _ => rfl

theorem Encodes.mulhsu (rd : BitVec 5) (rs1 : BitVec 5) (rs2 : BitVec 5) : Encodes.Statement (.mulhsu rd rs1 rs2) :=
  fun _ => rfl

theorem Encodes.mulhu (rd : BitVec 5) (rs1 : BitVec 5) (rs2 : BitVec 5) : Encodes.Statement (.mulhu rd rs1 rs2) :=
  fun _ => rfl

theorem Encodes.div (rd : BitVec 5) (rs1 : BitVec 5) (rs2 : BitVec 5) : Encodes.Statement (.div rd rs1 rs2) := fun _ => rfl

theorem Encodes.divu (rd : BitVec 5) (rs1 : BitVec 5) (rs2 : BitVec 5) : Encodes.Statement (.divu rd rs1 rs2) :=
  fun _ => rfl

theorem Encodes.rem (rd : BitVec 5) (rs1 : BitVec 5) (rs2 : BitVec 5) : Encodes.Statement (.rem rd rs1 rs2) := fun _ => rfl

theorem Encodes.remu (rd : BitVec 5) (rs1 : BitVec 5) (rs2 : BitVec 5) : Encodes.Statement (.remu rd rs1 rs2) :=
  fun _ => rfl

theorem Encodes.addw (rd : BitVec 5) (rs1 : BitVec 5) (rs2 : BitVec 5) : Encodes.Statement (.addw rd rs1 rs2) :=
  fun _ => rfl

theorem Encodes.sllw (rd : BitVec 5) (rs1 : BitVec 5) (rs2 : BitVec 5) : Encodes.Statement (.sllw rd rs1 rs2) :=
  fun _ => rfl

theorem Encodes.srlw (rd : BitVec 5) (rs1 : BitVec 5) (rs2 : BitVec 5) : Encodes.Statement (.srlw rd rs1 rs2) :=
  fun _ => rfl

theorem Encodes.subw (rd : BitVec 5) (rs1 : BitVec 5) (rs2 : BitVec 5) : Encodes.Statement (.subw rd rs1 rs2) :=
  fun _ => rfl

theorem Encodes.sraw (rd : BitVec 5) (rs1 : BitVec 5) (rs2 : BitVec 5) : Encodes.Statement (.sraw rd rs1 rs2) :=
  fun _ => rfl

theorem Encodes.mulw (rd : BitVec 5) (rs1 : BitVec 5) (rs2 : BitVec 5) : Encodes.Statement (.mulw rd rs1 rs2) :=
  fun _ => rfl

theorem Encodes.divw (rd : BitVec 5) (rs1 : BitVec 5) (rs2 : BitVec 5) : Encodes.Statement (.divw rd rs1 rs2) :=
  fun _ => rfl

theorem Encodes.divuw (rd : BitVec 5) (rs1 : BitVec 5) (rs2 : BitVec 5) : Encodes.Statement (.divuw rd rs1 rs2) :=
  fun _ => rfl

theorem Encodes.remw (rd : BitVec 5) (rs1 : BitVec 5) (rs2 : BitVec 5) : Encodes.Statement (.remw rd rs1 rs2) :=
  fun _ => rfl

theorem Encodes.remuw (rd : BitVec 5) (rs1 : BitVec 5) (rs2 : BitVec 5) : Encodes.Statement (.remuw rd rs1 rs2) :=
  fun _ => rfl

theorem Encodes.fence (fm : BitVec 4) (pred : BitVec 4) (succ : BitVec 4) (rs1 : BitVec 5) (rd : BitVec 5) : Encodes.Statement (.fence fm pred succ rs1 rd) :=
  fun _ => rfl

theorem Encodes.fenceI (rd : BitVec 5) (rs1 : BitVec 5) (imm : BitVec 12) : Encodes.Statement (.fenceI rd rs1 imm) :=
  fun _ => rfl

theorem Encodes.amoaddW (rd : BitVec 5) (rs1 : BitVec 5) (rs2 : BitVec 5) (aq : BitVec 1) (rl : BitVec 1) : Encodes.Statement (.amoaddW rd rs1 rs2 aq rl) :=
  fun _ => rfl

theorem Encodes.amoaddD (rd : BitVec 5) (rs1 : BitVec 5) (rs2 : BitVec 5) (aq : BitVec 1) (rl : BitVec 1) : Encodes.Statement (.amoaddD rd rs1 rs2 aq rl) :=
  fun _ => rfl

theorem Encodes.amoswapW (rd : BitVec 5) (rs1 : BitVec 5) (rs2 : BitVec 5) (aq : BitVec 1) (rl : BitVec 1) : Encodes.Statement (.amoswapW rd rs1 rs2 aq rl) :=
  fun _ => rfl

theorem Encodes.amoswapD (rd : BitVec 5) (rs1 : BitVec 5) (rs2 : BitVec 5) (aq : BitVec 1) (rl : BitVec 1) : Encodes.Statement (.amoswapD rd rs1 rs2 aq rl) :=
  fun _ => rfl

theorem Encodes.lrW (rd : BitVec 5) (rs1 : BitVec 5) (aq : BitVec 1) (rl : BitVec 1) : Encodes.Statement (.lrW rd rs1 aq rl) :=
  fun _ => rfl

theorem Encodes.lrD (rd : BitVec 5) (rs1 : BitVec 5) (aq : BitVec 1) (rl : BitVec 1) : Encodes.Statement (.lrD rd rs1 aq rl) :=
  fun _ => rfl

theorem Encodes.scW (rd : BitVec 5) (rs1 : BitVec 5) (rs2 : BitVec 5) (aq : BitVec 1) (rl : BitVec 1) : Encodes.Statement (.scW rd rs1 rs2 aq rl) :=
  fun _ => rfl

theorem Encodes.scD (rd : BitVec 5) (rs1 : BitVec 5) (rs2 : BitVec 5) (aq : BitVec 1) (rl : BitVec 1) : Encodes.Statement (.scD rd rs1 rs2 aq rl) :=
  fun _ => rfl

theorem Encodes.amoxorW (rd : BitVec 5) (rs1 : BitVec 5) (rs2 : BitVec 5) (aq : BitVec 1) (rl : BitVec 1) : Encodes.Statement (.amoxorW rd rs1 rs2 aq rl) :=
  fun _ => rfl

theorem Encodes.amoxorD (rd : BitVec 5) (rs1 : BitVec 5) (rs2 : BitVec 5) (aq : BitVec 1) (rl : BitVec 1) : Encodes.Statement (.amoxorD rd rs1 rs2 aq rl) :=
  fun _ => rfl

theorem Encodes.amoorW (rd : BitVec 5) (rs1 : BitVec 5) (rs2 : BitVec 5) (aq : BitVec 1) (rl : BitVec 1) : Encodes.Statement (.amoorW rd rs1 rs2 aq rl) :=
  fun _ => rfl

theorem Encodes.amoorD (rd : BitVec 5) (rs1 : BitVec 5) (rs2 : BitVec 5) (aq : BitVec 1) (rl : BitVec 1) : Encodes.Statement (.amoorD rd rs1 rs2 aq rl) :=
  fun _ => rfl

theorem Encodes.amoandW (rd : BitVec 5) (rs1 : BitVec 5) (rs2 : BitVec 5) (aq : BitVec 1) (rl : BitVec 1) : Encodes.Statement (.amoandW rd rs1 rs2 aq rl) :=
  fun _ => rfl

theorem Encodes.amoandD (rd : BitVec 5) (rs1 : BitVec 5) (rs2 : BitVec 5) (aq : BitVec 1) (rl : BitVec 1) : Encodes.Statement (.amoandD rd rs1 rs2 aq rl) :=
  fun _ => rfl

theorem Encodes.amominW (rd : BitVec 5) (rs1 : BitVec 5) (rs2 : BitVec 5) (aq : BitVec 1) (rl : BitVec 1) : Encodes.Statement (.amominW rd rs1 rs2 aq rl) :=
  fun _ => rfl

theorem Encodes.amominD (rd : BitVec 5) (rs1 : BitVec 5) (rs2 : BitVec 5) (aq : BitVec 1) (rl : BitVec 1) : Encodes.Statement (.amominD rd rs1 rs2 aq rl) :=
  fun _ => rfl

theorem Encodes.amomaxW (rd : BitVec 5) (rs1 : BitVec 5) (rs2 : BitVec 5) (aq : BitVec 1) (rl : BitVec 1) : Encodes.Statement (.amomaxW rd rs1 rs2 aq rl) :=
  fun _ => rfl

theorem Encodes.amomaxD (rd : BitVec 5) (rs1 : BitVec 5) (rs2 : BitVec 5) (aq : BitVec 1) (rl : BitVec 1) : Encodes.Statement (.amomaxD rd rs1 rs2 aq rl) :=
  fun _ => rfl

theorem Encodes.amominuW (rd : BitVec 5) (rs1 : BitVec 5) (rs2 : BitVec 5) (aq : BitVec 1) (rl : BitVec 1) : Encodes.Statement (.amominuW rd rs1 rs2 aq rl) :=
  fun _ => rfl

theorem Encodes.amominuD (rd : BitVec 5) (rs1 : BitVec 5) (rs2 : BitVec 5) (aq : BitVec 1) (rl : BitVec 1) : Encodes.Statement (.amominuD rd rs1 rs2 aq rl) :=
  fun _ => rfl

theorem Encodes.amomaxuW (rd : BitVec 5) (rs1 : BitVec 5) (rs2 : BitVec 5) (aq : BitVec 1) (rl : BitVec 1) : Encodes.Statement (.amomaxuW rd rs1 rs2 aq rl) :=
  fun _ => rfl

theorem Encodes.amomaxuD (rd : BitVec 5) (rs1 : BitVec 5) (rs2 : BitVec 5) (aq : BitVec 1) (rl : BitVec 1) : Encodes.Statement (.amomaxuD rd rs1 rs2 aq rl) :=
  fun _ => rfl

theorem Encodes.ecall : Encodes.Statement .ecall := fun _ => rfl

theorem Encodes.ebreak : Encodes.Statement .ebreak := fun _ => rfl

theorem Encodes.sret : Encodes.Statement .sret := fun _ => rfl

theorem Encodes.mret : Encodes.Statement .mret := fun _ => rfl

theorem Encodes.wfi : Encodes.Statement .wfi := fun _ => rfl

theorem Encodes.sfenceVma (rs1 : BitVec 5) (rs2 : BitVec 5) : Encodes.Statement (.sfenceVma rs1 rs2) := fun _ => rfl

theorem Encodes.csrrw (rd : BitVec 5) (rs1 : BitVec 5) (csr : BitVec 12) : Encodes.Statement (.csrrw rd rs1 csr) :=
  fun _ => rfl

theorem Encodes.csrrs (rd : BitVec 5) (rs1 : BitVec 5) (csr : BitVec 12) : Encodes.Statement (.csrrs rd rs1 csr) :=
  fun _ => rfl

theorem Encodes.csrrc (rd : BitVec 5) (rs1 : BitVec 5) (csr : BitVec 12) : Encodes.Statement (.csrrc rd rs1 csr) :=
  fun _ => rfl

theorem Encodes.csrrwi (rd : BitVec 5) (uimm : BitVec 5) (csr : BitVec 12) : Encodes.Statement (.csrrwi rd uimm csr) :=
  fun _ => rfl

theorem Encodes.csrrsi (rd : BitVec 5) (uimm : BitVec 5) (csr : BitVec 12) : Encodes.Statement (.csrrsi rd uimm csr) :=
  fun _ => rfl

theorem Encodes.csrrci (rd : BitVec 5) (uimm : BitVec 5) (csr : BitVec 12) : Encodes.Statement (.csrrci rd uimm csr) :=
  fun _ => rfl

theorem Encodes.flw (rd : BitVec 5) (rs1 : BitVec 5) (imm : BitVec 12) : Encodes.Statement (.flw rd rs1 imm) :=
  fun _ => rfl

theorem Encodes.fsw (rs1 : BitVec 5) (rs2 : BitVec 5) (imm : BitVec 12) : Encodes.Statement (.fsw rs1 rs2 imm) :=
  fun _ => rfl

theorem Encodes.fmaddS (rd : BitVec 5) (rs1 : BitVec 5) (rs2 : BitVec 5) (rs3 : BitVec 5) (rm : BitVec 3) : Encodes.Statement (.fmaddS rd rs1 rs2 rs3 rm) :=
  fun _ => rfl

theorem Encodes.fmsubS (rd : BitVec 5) (rs1 : BitVec 5) (rs2 : BitVec 5) (rs3 : BitVec 5) (rm : BitVec 3) : Encodes.Statement (.fmsubS rd rs1 rs2 rs3 rm) :=
  fun _ => rfl

theorem Encodes.fnmsubS (rd : BitVec 5) (rs1 : BitVec 5) (rs2 : BitVec 5) (rs3 : BitVec 5) (rm : BitVec 3) : Encodes.Statement (.fnmsubS rd rs1 rs2 rs3 rm) :=
  fun _ => rfl

theorem Encodes.fnmaddS (rd : BitVec 5) (rs1 : BitVec 5) (rs2 : BitVec 5) (rs3 : BitVec 5) (rm : BitVec 3) : Encodes.Statement (.fnmaddS rd rs1 rs2 rs3 rm) :=
  fun _ => rfl

theorem Encodes.faddS (rd : BitVec 5) (rs1 : BitVec 5) (rs2 : BitVec 5) (rm : BitVec 3) : Encodes.Statement (.faddS rd rs1 rs2 rm) :=
  fun _ => rfl

theorem Encodes.fsubS (rd : BitVec 5) (rs1 : BitVec 5) (rs2 : BitVec 5) (rm : BitVec 3) : Encodes.Statement (.fsubS rd rs1 rs2 rm) :=
  fun _ => rfl

theorem Encodes.fmulS (rd : BitVec 5) (rs1 : BitVec 5) (rs2 : BitVec 5) (rm : BitVec 3) : Encodes.Statement (.fmulS rd rs1 rs2 rm) :=
  fun _ => rfl

theorem Encodes.fdivS (rd : BitVec 5) (rs1 : BitVec 5) (rs2 : BitVec 5) (rm : BitVec 3) : Encodes.Statement (.fdivS rd rs1 rs2 rm) :=
  fun _ => rfl

theorem Encodes.fsqrtS (rd : BitVec 5) (rs1 : BitVec 5) (rm : BitVec 3) : Encodes.Statement (.fsqrtS rd rs1 rm) :=
  fun _ => rfl

theorem Encodes.fsgnjS (rd : BitVec 5) (rs1 : BitVec 5) (rs2 : BitVec 5) : Encodes.Statement (.fsgnjS rd rs1 rs2) :=
  fun _ => rfl

theorem Encodes.fsgnjnS (rd : BitVec 5) (rs1 : BitVec 5) (rs2 : BitVec 5) : Encodes.Statement (.fsgnjnS rd rs1 rs2) :=
  fun _ => rfl

theorem Encodes.fsgnjxS (rd : BitVec 5) (rs1 : BitVec 5) (rs2 : BitVec 5) : Encodes.Statement (.fsgnjxS rd rs1 rs2) :=
  fun _ => rfl

theorem Encodes.fminS (rd : BitVec 5) (rs1 : BitVec 5) (rs2 : BitVec 5) : Encodes.Statement (.fminS rd rs1 rs2) :=
  fun _ => rfl

theorem Encodes.fmaxS (rd : BitVec 5) (rs1 : BitVec 5) (rs2 : BitVec 5) : Encodes.Statement (.fmaxS rd rs1 rs2) :=
  fun _ => rfl

theorem Encodes.fleS (rd : BitVec 5) (rs1 : BitVec 5) (rs2 : BitVec 5) : Encodes.Statement (.fleS rd rs1 rs2) :=
  fun _ => rfl

theorem Encodes.fltS (rd : BitVec 5) (rs1 : BitVec 5) (rs2 : BitVec 5) : Encodes.Statement (.fltS rd rs1 rs2) :=
  fun _ => rfl

theorem Encodes.feqS (rd : BitVec 5) (rs1 : BitVec 5) (rs2 : BitVec 5) : Encodes.Statement (.feqS rd rs1 rs2) :=
  fun _ => rfl

theorem Encodes.fcvtWS (rd : BitVec 5) (rs1 : BitVec 5) (rm : BitVec 3) : Encodes.Statement (.fcvtWS rd rs1 rm) :=
  fun _ => rfl

theorem Encodes.fcvtWuS (rd : BitVec 5) (rs1 : BitVec 5) (rm : BitVec 3) : Encodes.Statement (.fcvtWuS rd rs1 rm) :=
  fun _ => rfl

theorem Encodes.fcvtLS (rd : BitVec 5) (rs1 : BitVec 5) (rm : BitVec 3) : Encodes.Statement (.fcvtLS rd rs1 rm) :=
  fun _ => rfl

theorem Encodes.fcvtLuS (rd : BitVec 5) (rs1 : BitVec 5) (rm : BitVec 3) : Encodes.Statement (.fcvtLuS rd rs1 rm) :=
  fun _ => rfl

theorem Encodes.fcvtSW (rd : BitVec 5) (rs1 : BitVec 5) (rm : BitVec 3) : Encodes.Statement (.fcvtSW rd rs1 rm) :=
  fun _ => rfl

theorem Encodes.fcvtSWu (rd : BitVec 5) (rs1 : BitVec 5) (rm : BitVec 3) : Encodes.Statement (.fcvtSWu rd rs1 rm) :=
  fun _ => rfl

theorem Encodes.fcvtSL (rd : BitVec 5) (rs1 : BitVec 5) (rm : BitVec 3) : Encodes.Statement (.fcvtSL rd rs1 rm) :=
  fun _ => rfl

theorem Encodes.fcvtSLu (rd : BitVec 5) (rs1 : BitVec 5) (rm : BitVec 3) : Encodes.Statement (.fcvtSLu rd rs1 rm) :=
  fun _ => rfl

theorem Encodes.fmvXW (rd : BitVec 5) (rs1 : BitVec 5) : Encodes.Statement (.fmvXW rd rs1) := fun _ => rfl

theorem Encodes.fclassS (rd : BitVec 5) (rs1 : BitVec 5) : Encodes.Statement (.fclassS rd rs1) := fun _ => rfl

theorem Encodes.fmvWX (rd : BitVec 5) (rs1 : BitVec 5) : Encodes.Statement (.fmvWX rd rs1) := fun _ => rfl

theorem Encodes.nonInstructionWord (word : BitVec 32) : Encodes.Statement (.nonInstructionWord word) := fun h => nomatch h

theorem Encodes.kclock (rd : BitVec 5) : Encodes.Statement (.kclock rd) := fun _ => rfl

theorem Encodes.kident (rd : BitVec 5) (sel : BitVec 10) : Encodes.Statement (.kident rd sel) := fun _ => rfl

theorem Encodes.cspawn (rd : BitVec 5) (rs1 : BitVec 5) : Encodes.Statement (.cspawn rd rs1) := fun _ => rfl

theorem Encodes.cjoin (rd : BitVec 5) (rs1 : BitVec 5) : Encodes.Statement (.cjoin rd rs1) := fun _ => rfl

theorem Encodes.stclaim (rd : BitVec 5) : Encodes.Statement (.stclaim rd) := fun _ => rfl

theorem Encodes.cfinish : Encodes.Statement .cfinish := fun _ => rfl

theorem Encodes.cyield (rd : BitVec 5) : Encodes.Statement (.cyield rd) := fun _ => rfl

theorem Encodes.rgnmake (rd : BitVec 5) (rs1 : BitVec 5) (rs2 : BitVec 5) : Encodes.Statement (.rgnmake rd rs1 rs2) :=
  fun _ => rfl

theorem Encodes.rgnsync (rd : BitVec 5) (rs1 : BitVec 5) (rs2 : BitVec 5) : Encodes.Statement (.rgnsync rd rs1 rs2) :=
  fun _ => rfl

theorem Encodes.cinfo (rd : BitVec 5) (sel : BitVec 10) : Encodes.Statement (.cinfo rd sel) := fun _ => rfl

theorem Encodes.selection (core : Nat) : Encodes.Statement (.selection core) := fun h => nomatch h

theorem Encodes.dispatch (core : Nat) : Encodes.Statement (.dispatch core) := fun h => nomatch h

theorem Encodes.preemptionRequest (record : Nat) (victim : Nat) : Encodes.Statement (.preemptionRequest record victim) :=
  fun h => nomatch h

theorem Encodes.interruptTrap (core : Nat) (groups : Nat) : Encodes.Statement (.interruptTrap core groups) := fun h => nomatch h

theorem Encodes.quiesceStop (core : Nat) : Encodes.Statement (.quiesceStop core) := fun h => nomatch h

theorem Encodes.faultReport (domain : Nat) : Encodes.Statement (.faultReport domain) := fun h => nomatch h

theorem Encodes.vcfg (rd : BitVec 5) (rs1 : BitVec 5) (rs2 : BitVec 5) : Encodes.Statement (.vcfg rd rs1 rs2) :=
  fun _ => rfl

theorem Encodes.vregs (rd : BitVec 5) (code : BitVec 5) : Encodes.Statement (.vregs rd code) := fun _ => rfl

theorem Encodes.vcfgi (rd : BitVec 5) (rs1 : BitVec 5) (cfg : BitVec 11) : Encodes.Statement (.vcfgi rd rs1 cfg) :=
  fun _ => rfl

theorem Encodes.vaddVv (vd : BitVec 5) (vs2 : BitVec 5) (vs1 : BitVec 5) (vm : BitVec 1) : Encodes.Statement (.vaddVv vd vs2 vs1 vm) :=
  fun _ => rfl

theorem Encodes.vaddVx (vd : BitVec 5) (vs2 : BitVec 5) (rs1 : BitVec 5) (vm : BitVec 1) : Encodes.Statement (.vaddVx vd vs2 rs1 vm) :=
  fun _ => rfl

theorem Encodes.vaddVi (vd : BitVec 5) (vs2 : BitVec 5) (imm : BitVec 5) (vm : BitVec 1) : Encodes.Statement (.vaddVi vd vs2 imm vm) :=
  fun _ => rfl

theorem Encodes.vaddVs (vd : BitVec 5) (vs2 : BitVec 5) (vs1 : BitVec 5) (vm : BitVec 1) : Encodes.Statement (.vaddVs vd vs2 vs1 vm) :=
  fun _ => rfl

theorem Encodes.vsubVv (vd : BitVec 5) (vs2 : BitVec 5) (vs1 : BitVec 5) (vm : BitVec 1) : Encodes.Statement (.vsubVv vd vs2 vs1 vm) :=
  fun _ => rfl

theorem Encodes.vrsubVx (vd : BitVec 5) (vs2 : BitVec 5) (rs1 : BitVec 5) (vm : BitVec 1) : Encodes.Statement (.vrsubVx vd vs2 rs1 vm) :=
  fun _ => rfl

theorem Encodes.vrsubVi (vd : BitVec 5) (vs2 : BitVec 5) (imm : BitVec 5) (vm : BitVec 1) : Encodes.Statement (.vrsubVi vd vs2 imm vm) :=
  fun _ => rfl

theorem Encodes.vminuVv (vd : BitVec 5) (vs2 : BitVec 5) (vs1 : BitVec 5) (vm : BitVec 1) : Encodes.Statement (.vminuVv vd vs2 vs1 vm) :=
  fun _ => rfl

theorem Encodes.vminuVx (vd : BitVec 5) (vs2 : BitVec 5) (rs1 : BitVec 5) (vm : BitVec 1) : Encodes.Statement (.vminuVx vd vs2 rs1 vm) :=
  fun _ => rfl

theorem Encodes.vminuVs (vd : BitVec 5) (vs2 : BitVec 5) (vs1 : BitVec 5) (vm : BitVec 1) : Encodes.Statement (.vminuVs vd vs2 vs1 vm) :=
  fun _ => rfl

theorem Encodes.vminVv (vd : BitVec 5) (vs2 : BitVec 5) (vs1 : BitVec 5) (vm : BitVec 1) : Encodes.Statement (.vminVv vd vs2 vs1 vm) :=
  fun _ => rfl

theorem Encodes.vminVx (vd : BitVec 5) (vs2 : BitVec 5) (rs1 : BitVec 5) (vm : BitVec 1) : Encodes.Statement (.vminVx vd vs2 rs1 vm) :=
  fun _ => rfl

theorem Encodes.vminVs (vd : BitVec 5) (vs2 : BitVec 5) (vs1 : BitVec 5) (vm : BitVec 1) : Encodes.Statement (.vminVs vd vs2 vs1 vm) :=
  fun _ => rfl

theorem Encodes.vmaxuVv (vd : BitVec 5) (vs2 : BitVec 5) (vs1 : BitVec 5) (vm : BitVec 1) : Encodes.Statement (.vmaxuVv vd vs2 vs1 vm) :=
  fun _ => rfl

theorem Encodes.vmaxuVx (vd : BitVec 5) (vs2 : BitVec 5) (rs1 : BitVec 5) (vm : BitVec 1) : Encodes.Statement (.vmaxuVx vd vs2 rs1 vm) :=
  fun _ => rfl

theorem Encodes.vmaxuVs (vd : BitVec 5) (vs2 : BitVec 5) (vs1 : BitVec 5) (vm : BitVec 1) : Encodes.Statement (.vmaxuVs vd vs2 vs1 vm) :=
  fun _ => rfl

theorem Encodes.vmaxVv (vd : BitVec 5) (vs2 : BitVec 5) (vs1 : BitVec 5) (vm : BitVec 1) : Encodes.Statement (.vmaxVv vd vs2 vs1 vm) :=
  fun _ => rfl

theorem Encodes.vmaxVx (vd : BitVec 5) (vs2 : BitVec 5) (rs1 : BitVec 5) (vm : BitVec 1) : Encodes.Statement (.vmaxVx vd vs2 rs1 vm) :=
  fun _ => rfl

theorem Encodes.vmaxVs (vd : BitVec 5) (vs2 : BitVec 5) (vs1 : BitVec 5) (vm : BitVec 1) : Encodes.Statement (.vmaxVs vd vs2 vs1 vm) :=
  fun _ => rfl

theorem Encodes.vandVv (vd : BitVec 5) (vs2 : BitVec 5) (vs1 : BitVec 5) (vm : BitVec 1) : Encodes.Statement (.vandVv vd vs2 vs1 vm) :=
  fun _ => rfl

theorem Encodes.vandVx (vd : BitVec 5) (vs2 : BitVec 5) (rs1 : BitVec 5) (vm : BitVec 1) : Encodes.Statement (.vandVx vd vs2 rs1 vm) :=
  fun _ => rfl

theorem Encodes.vandVi (vd : BitVec 5) (vs2 : BitVec 5) (imm : BitVec 5) (vm : BitVec 1) : Encodes.Statement (.vandVi vd vs2 imm vm) :=
  fun _ => rfl

theorem Encodes.vandMm (vd : BitVec 5) (vs2 : BitVec 5) (vs1 : BitVec 5) : Encodes.Statement (.vandMm vd vs2 vs1) :=
  fun _ => rfl

theorem Encodes.vandVs (vd : BitVec 5) (vs2 : BitVec 5) (vs1 : BitVec 5) (vm : BitVec 1) : Encodes.Statement (.vandVs vd vs2 vs1 vm) :=
  fun _ => rfl

theorem Encodes.vorVv (vd : BitVec 5) (vs2 : BitVec 5) (vs1 : BitVec 5) (vm : BitVec 1) : Encodes.Statement (.vorVv vd vs2 vs1 vm) :=
  fun _ => rfl

theorem Encodes.vorVx (vd : BitVec 5) (vs2 : BitVec 5) (rs1 : BitVec 5) (vm : BitVec 1) : Encodes.Statement (.vorVx vd vs2 rs1 vm) :=
  fun _ => rfl

theorem Encodes.vorVi (vd : BitVec 5) (vs2 : BitVec 5) (imm : BitVec 5) (vm : BitVec 1) : Encodes.Statement (.vorVi vd vs2 imm vm) :=
  fun _ => rfl

theorem Encodes.vorMm (vd : BitVec 5) (vs2 : BitVec 5) (vs1 : BitVec 5) : Encodes.Statement (.vorMm vd vs2 vs1) :=
  fun _ => rfl

theorem Encodes.vorVs (vd : BitVec 5) (vs2 : BitVec 5) (vs1 : BitVec 5) (vm : BitVec 1) : Encodes.Statement (.vorVs vd vs2 vs1 vm) :=
  fun _ => rfl

theorem Encodes.vxorVv (vd : BitVec 5) (vs2 : BitVec 5) (vs1 : BitVec 5) (vm : BitVec 1) : Encodes.Statement (.vxorVv vd vs2 vs1 vm) :=
  fun _ => rfl

theorem Encodes.vxorVx (vd : BitVec 5) (vs2 : BitVec 5) (rs1 : BitVec 5) (vm : BitVec 1) : Encodes.Statement (.vxorVx vd vs2 rs1 vm) :=
  fun _ => rfl

theorem Encodes.vxorVi (vd : BitVec 5) (vs2 : BitVec 5) (imm : BitVec 5) (vm : BitVec 1) : Encodes.Statement (.vxorVi vd vs2 imm vm) :=
  fun _ => rfl

theorem Encodes.vxorMm (vd : BitVec 5) (vs2 : BitVec 5) (vs1 : BitVec 5) : Encodes.Statement (.vxorMm vd vs2 vs1) :=
  fun _ => rfl

theorem Encodes.vxorVs (vd : BitVec 5) (vs2 : BitVec 5) (vs1 : BitVec 5) (vm : BitVec 1) : Encodes.Statement (.vxorVs vd vs2 vs1 vm) :=
  fun _ => rfl

theorem Encodes.vsllVv (vd : BitVec 5) (vs2 : BitVec 5) (vs1 : BitVec 5) (vm : BitVec 1) : Encodes.Statement (.vsllVv vd vs2 vs1 vm) :=
  fun _ => rfl

theorem Encodes.vsllVx (vd : BitVec 5) (vs2 : BitVec 5) (rs1 : BitVec 5) (vm : BitVec 1) : Encodes.Statement (.vsllVx vd vs2 rs1 vm) :=
  fun _ => rfl

theorem Encodes.vsllVi (vd : BitVec 5) (vs2 : BitVec 5) (imm : BitVec 5) (vm : BitVec 1) : Encodes.Statement (.vsllVi vd vs2 imm vm) :=
  fun _ => rfl

theorem Encodes.vsrlVv (vd : BitVec 5) (vs2 : BitVec 5) (vs1 : BitVec 5) (vm : BitVec 1) : Encodes.Statement (.vsrlVv vd vs2 vs1 vm) :=
  fun _ => rfl

theorem Encodes.vsrlVx (vd : BitVec 5) (vs2 : BitVec 5) (rs1 : BitVec 5) (vm : BitVec 1) : Encodes.Statement (.vsrlVx vd vs2 rs1 vm) :=
  fun _ => rfl

theorem Encodes.vsrlVi (vd : BitVec 5) (vs2 : BitVec 5) (imm : BitVec 5) (vm : BitVec 1) : Encodes.Statement (.vsrlVi vd vs2 imm vm) :=
  fun _ => rfl

theorem Encodes.vnclipuWv (vd : BitVec 5) (vs2 : BitVec 5) (vs1 : BitVec 5) (vm : BitVec 1) : Encodes.Statement (.vnclipuWv vd vs2 vs1 vm) :=
  fun _ => rfl

theorem Encodes.vsraVv (vd : BitVec 5) (vs2 : BitVec 5) (vs1 : BitVec 5) (vm : BitVec 1) : Encodes.Statement (.vsraVv vd vs2 vs1 vm) :=
  fun _ => rfl

theorem Encodes.vsraVx (vd : BitVec 5) (vs2 : BitVec 5) (rs1 : BitVec 5) (vm : BitVec 1) : Encodes.Statement (.vsraVx vd vs2 rs1 vm) :=
  fun _ => rfl

theorem Encodes.vsraVi (vd : BitVec 5) (vs2 : BitVec 5) (imm : BitVec 5) (vm : BitVec 1) : Encodes.Statement (.vsraVi vd vs2 imm vm) :=
  fun _ => rfl

theorem Encodes.vnclipWv (vd : BitVec 5) (vs2 : BitVec 5) (vs1 : BitVec 5) (vm : BitVec 1) : Encodes.Statement (.vnclipWv vd vs2 vs1 vm) :=
  fun _ => rfl

theorem Encodes.vmulVv (vd : BitVec 5) (vs2 : BitVec 5) (vs1 : BitVec 5) (vm : BitVec 1) : Encodes.Statement (.vmulVv vd vs2 vs1 vm) :=
  fun _ => rfl

theorem Encodes.vmulVx (vd : BitVec 5) (vs2 : BitVec 5) (rs1 : BitVec 5) (vm : BitVec 1) : Encodes.Statement (.vmulVx vd vs2 rs1 vm) :=
  fun _ => rfl

theorem Encodes.vmulhVv (vd : BitVec 5) (vs2 : BitVec 5) (vs1 : BitVec 5) (vm : BitVec 1) : Encodes.Statement (.vmulhVv vd vs2 vs1 vm) :=
  fun _ => rfl

theorem Encodes.vmulhVx (vd : BitVec 5) (vs2 : BitVec 5) (rs1 : BitVec 5) (vm : BitVec 1) : Encodes.Statement (.vmulhVx vd vs2 rs1 vm) :=
  fun _ => rfl

theorem Encodes.vmaccVv (vd : BitVec 5) (vs2 : BitVec 5) (vs1 : BitVec 5) (vm : BitVec 1) : Encodes.Statement (.vmaccVv vd vs2 vs1 vm) :=
  fun _ => rfl

theorem Encodes.vmaccVx (vd : BitVec 5) (vs2 : BitVec 5) (rs1 : BitVec 5) (vm : BitVec 1) : Encodes.Statement (.vmaccVx vd vs2 rs1 vm) :=
  fun _ => rfl

theorem Encodes.vdot4Vv (vd : BitVec 5) (vs2 : BitVec 5) (vs1 : BitVec 5) (vm : BitVec 1) : Encodes.Statement (.vdot4Vv vd vs2 vs1 vm) :=
  fun _ => rfl

theorem Encodes.vdot4Vx (vd : BitVec 5) (vs2 : BitVec 5) (rs1 : BitVec 5) (vm : BitVec 1) : Encodes.Statement (.vdot4Vx vd vs2 rs1 vm) :=
  fun _ => rfl

theorem Encodes.vdivuVv (vd : BitVec 5) (vs2 : BitVec 5) (vs1 : BitVec 5) (vm : BitVec 1) : Encodes.Statement (.vdivuVv vd vs2 vs1 vm) :=
  fun _ => rfl

theorem Encodes.vdivuVx (vd : BitVec 5) (vs2 : BitVec 5) (rs1 : BitVec 5) (vm : BitVec 1) : Encodes.Statement (.vdivuVx vd vs2 rs1 vm) :=
  fun _ => rfl

theorem Encodes.vdivVv (vd : BitVec 5) (vs2 : BitVec 5) (vs1 : BitVec 5) (vm : BitVec 1) : Encodes.Statement (.vdivVv vd vs2 vs1 vm) :=
  fun _ => rfl

theorem Encodes.vdivVx (vd : BitVec 5) (vs2 : BitVec 5) (rs1 : BitVec 5) (vm : BitVec 1) : Encodes.Statement (.vdivVx vd vs2 rs1 vm) :=
  fun _ => rfl

theorem Encodes.vremuVv (vd : BitVec 5) (vs2 : BitVec 5) (vs1 : BitVec 5) (vm : BitVec 1) : Encodes.Statement (.vremuVv vd vs2 vs1 vm) :=
  fun _ => rfl

theorem Encodes.vremuVx (vd : BitVec 5) (vs2 : BitVec 5) (rs1 : BitVec 5) (vm : BitVec 1) : Encodes.Statement (.vremuVx vd vs2 rs1 vm) :=
  fun _ => rfl

theorem Encodes.vremVv (vd : BitVec 5) (vs2 : BitVec 5) (vs1 : BitVec 5) (vm : BitVec 1) : Encodes.Statement (.vremVv vd vs2 vs1 vm) :=
  fun _ => rfl

theorem Encodes.vremVx (vd : BitVec 5) (vs2 : BitVec 5) (rs1 : BitVec 5) (vm : BitVec 1) : Encodes.Statement (.vremVx vd vs2 rs1 vm) :=
  fun _ => rfl

theorem Encodes.vsadduVv (vd : BitVec 5) (vs2 : BitVec 5) (vs1 : BitVec 5) (vm : BitVec 1) : Encodes.Statement (.vsadduVv vd vs2 vs1 vm) :=
  fun _ => rfl

theorem Encodes.vsadduVx (vd : BitVec 5) (vs2 : BitVec 5) (rs1 : BitVec 5) (vm : BitVec 1) : Encodes.Statement (.vsadduVx vd vs2 rs1 vm) :=
  fun _ => rfl

theorem Encodes.vsadduVi (vd : BitVec 5) (vs2 : BitVec 5) (imm : BitVec 5) (vm : BitVec 1) : Encodes.Statement (.vsadduVi vd vs2 imm vm) :=
  fun _ => rfl

theorem Encodes.vsaddVv (vd : BitVec 5) (vs2 : BitVec 5) (vs1 : BitVec 5) (vm : BitVec 1) : Encodes.Statement (.vsaddVv vd vs2 vs1 vm) :=
  fun _ => rfl

theorem Encodes.vsaddVx (vd : BitVec 5) (vs2 : BitVec 5) (rs1 : BitVec 5) (vm : BitVec 1) : Encodes.Statement (.vsaddVx vd vs2 rs1 vm) :=
  fun _ => rfl

theorem Encodes.vsaddVi (vd : BitVec 5) (vs2 : BitVec 5) (imm : BitVec 5) (vm : BitVec 1) : Encodes.Statement (.vsaddVi vd vs2 imm vm) :=
  fun _ => rfl

theorem Encodes.vssubuVv (vd : BitVec 5) (vs2 : BitVec 5) (vs1 : BitVec 5) (vm : BitVec 1) : Encodes.Statement (.vssubuVv vd vs2 vs1 vm) :=
  fun _ => rfl

theorem Encodes.vssubuVx (vd : BitVec 5) (vs2 : BitVec 5) (rs1 : BitVec 5) (vm : BitVec 1) : Encodes.Statement (.vssubuVx vd vs2 rs1 vm) :=
  fun _ => rfl

theorem Encodes.vssubVv (vd : BitVec 5) (vs2 : BitVec 5) (vs1 : BitVec 5) (vm : BitVec 1) : Encodes.Statement (.vssubVv vd vs2 vs1 vm) :=
  fun _ => rfl

theorem Encodes.vssubVx (vd : BitVec 5) (vs2 : BitVec 5) (rs1 : BitVec 5) (vm : BitVec 1) : Encodes.Statement (.vssubVx vd vs2 rs1 vm) :=
  fun _ => rfl

theorem Encodes.vcmpVv (cc : BitVec 3) (md : BitVec 2) (vs2 : BitVec 5) (vs1 : BitVec 5) (vm : BitVec 1) : Encodes.Statement (.vcmpVv cc md vs2 vs1 vm) :=
  fun _ => rfl

theorem Encodes.vcmpVx (cc : BitVec 3) (md : BitVec 2) (vs2 : BitVec 5) (rs1 : BitVec 5) (vm : BitVec 1) : Encodes.Statement (.vcmpVx cc md vs2 rs1 vm) :=
  fun _ => rfl

theorem Encodes.vcmpVi (cc : BitVec 3) (md : BitVec 2) (vs2 : BitVec 5) (imm : BitVec 5) (vm : BitVec 1) : Encodes.Statement (.vcmpVi cc md vs2 imm vm) :=
  fun _ => rfl

theorem Encodes.vwadduVv (vd : BitVec 5) (vs2 : BitVec 5) (vs1 : BitVec 5) (vm : BitVec 1) : Encodes.Statement (.vwadduVv vd vs2 vs1 vm) :=
  fun _ => rfl

theorem Encodes.vwadduVx (vd : BitVec 5) (vs2 : BitVec 5) (rs1 : BitVec 5) (vm : BitVec 1) : Encodes.Statement (.vwadduVx vd vs2 rs1 vm) :=
  fun _ => rfl

theorem Encodes.vwadduWv (vd : BitVec 5) (vs2 : BitVec 5) (vs1 : BitVec 5) (vm : BitVec 1) : Encodes.Statement (.vwadduWv vd vs2 vs1 vm) :=
  fun _ => rfl

theorem Encodes.vwaddVv (vd : BitVec 5) (vs2 : BitVec 5) (vs1 : BitVec 5) (vm : BitVec 1) : Encodes.Statement (.vwaddVv vd vs2 vs1 vm) :=
  fun _ => rfl

theorem Encodes.vwaddVx (vd : BitVec 5) (vs2 : BitVec 5) (rs1 : BitVec 5) (vm : BitVec 1) : Encodes.Statement (.vwaddVx vd vs2 rs1 vm) :=
  fun _ => rfl

theorem Encodes.vwaddWv (vd : BitVec 5) (vs2 : BitVec 5) (vs1 : BitVec 5) (vm : BitVec 1) : Encodes.Statement (.vwaddWv vd vs2 vs1 vm) :=
  fun _ => rfl

theorem Encodes.vwmuluVv (vd : BitVec 5) (vs2 : BitVec 5) (vs1 : BitVec 5) (vm : BitVec 1) : Encodes.Statement (.vwmuluVv vd vs2 vs1 vm) :=
  fun _ => rfl

theorem Encodes.vwmuluVx (vd : BitVec 5) (vs2 : BitVec 5) (rs1 : BitVec 5) (vm : BitVec 1) : Encodes.Statement (.vwmuluVx vd vs2 rs1 vm) :=
  fun _ => rfl

theorem Encodes.vwmulVv (vd : BitVec 5) (vs2 : BitVec 5) (vs1 : BitVec 5) (vm : BitVec 1) : Encodes.Statement (.vwmulVv vd vs2 vs1 vm) :=
  fun _ => rfl

theorem Encodes.vwmulVx (vd : BitVec 5) (vs2 : BitVec 5) (rs1 : BitVec 5) (vm : BitVec 1) : Encodes.Statement (.vwmulVx vd vs2 rs1 vm) :=
  fun _ => rfl

theorem Encodes.vpermVv (vd : BitVec 5) (vs2 : BitVec 5) (vs1 : BitVec 5) (vm : BitVec 1) : Encodes.Statement (.vpermVv vd vs2 vs1 vm) :=
  fun _ => rfl

theorem Encodes.vslideVx (vd : BitVec 5) (vs2 : BitVec 5) (rs1 : BitVec 5) (vm : BitVec 1) : Encodes.Statement (.vslideVx vd vs2 rs1 vm) :=
  fun _ => rfl

theorem Encodes.vslideVi (vd : BitVec 5) (vs2 : BitVec 5) (imm : BitVec 5) (vm : BitVec 1) : Encodes.Statement (.vslideVi vd vs2 imm vm) :=
  fun _ => rfl

theorem Encodes.vmpopc (rd : BitVec 5) (vs2 : BitVec 5) (vm : BitVec 1) : Encodes.Statement (.vmpopc rd vs2 vm) :=
  fun _ => rfl

theorem Encodes.vmfirst (rd : BitVec 5) (vs2 : BitVec 5) (vm : BitVec 1) : Encodes.Statement (.vmfirst rd vs2 vm) :=
  fun _ => rfl

theorem Encodes.vmprefix (vd : BitVec 5) (vs2 : BitVec 5) (vm : BitVec 1) : Encodes.Statement (.vmprefix vd vs2 vm) :=
  fun _ => rfl

theorem Encodes.viota (vd : BitVec 5) (vs2 : BitVec 5) (vm : BitVec 1) : Encodes.Statement (.viota vd vs2 vm) :=
  fun _ => rfl

theorem Encodes.vid (vd : BitVec 5) (vm : BitVec 1) : Encodes.Statement (.vid vd vm) := fun _ => rfl

theorem Encodes.vmnot (vd : BitVec 5) (vs2 : BitVec 5) : Encodes.Statement (.vmnot vd vs2) := fun _ => rfl

theorem Encodes.vlutVv (vd : BitVec 5) (vs2 : BitVec 5) (vs1 : BitVec 5) (vm : BitVec 1) : Encodes.Statement (.vlutVv vd vs2 vs1 vm) :=
  fun _ => rfl

theorem Encodes.vmvSX (vd : BitVec 5) (rs1 : BitVec 5) : Encodes.Statement (.vmvSX vd rs1) := fun _ => rfl

theorem Encodes.vunpk (vd : BitVec 5) (vs2 : BitVec 5) (imm : BitVec 4) (vm : BitVec 1) : Encodes.Statement (.vunpk vd vs2 imm vm) :=
  fun _ => rfl

theorem Encodes.vcompress (vd : BitVec 5) (vs2 : BitVec 5) : Encodes.Statement (.vcompress vd vs2) := fun _ => rfl

theorem Encodes.vexpand (vd : BitVec 5) (vs2 : BitVec 5) : Encodes.Statement (.vexpand vd vs2) := fun _ => rfl

theorem Encodes.vmvXS (rd : BitVec 5) (vs2 : BitVec 5) : Encodes.Statement (.vmvXS rd vs2) := fun _ => rfl

theorem Encodes.vmvVV (vd : BitVec 5) (vs1 : BitVec 5) : Encodes.Statement (.vmvVV vd vs1) := fun _ => rfl

theorem Encodes.vmergeVvm (vd : BitVec 5) (vs2 : BitVec 5) (vs1 : BitVec 5) : Encodes.Statement (.vmergeVvm vd vs2 vs1) :=
  fun _ => rfl

theorem Encodes.vmvVX (vd : BitVec 5) (rs1 : BitVec 5) : Encodes.Statement (.vmvVX vd rs1) := fun _ => rfl

theorem Encodes.vmergeVxm (vd : BitVec 5) (vs2 : BitVec 5) (rs1 : BitVec 5) : Encodes.Statement (.vmergeVxm vd vs2 rs1) :=
  fun _ => rfl

theorem Encodes.vreshape (vd : BitVec 5) (vs2 : BitVec 5) (imm : BitVec 5) (vm : BitVec 1) : Encodes.Statement (.vreshape vd vs2 imm vm) :=
  fun _ => rfl

theorem Encodes.vfaddVv (vd : BitVec 5) (vs2 : BitVec 5) (vs1 : BitVec 5) (vm : BitVec 1) : Encodes.Statement (.vfaddVv vd vs2 vs1 vm) :=
  fun _ => rfl

theorem Encodes.vfaddVf (vd : BitVec 5) (vs2 : BitVec 5) (rs1 : BitVec 5) (vm : BitVec 1) : Encodes.Statement (.vfaddVf vd vs2 rs1 vm) :=
  fun _ => rfl

theorem Encodes.vftsumVs (vd : BitVec 5) (vs2 : BitVec 5) (vs1 : BitVec 5) (vm : BitVec 1) : Encodes.Statement (.vftsumVs vd vs2 vs1 vm) :=
  fun _ => rfl

theorem Encodes.vfsubVv (vd : BitVec 5) (vs2 : BitVec 5) (vs1 : BitVec 5) (vm : BitVec 1) : Encodes.Statement (.vfsubVv vd vs2 vs1 vm) :=
  fun _ => rfl

theorem Encodes.vfsubVf (vd : BitVec 5) (vs2 : BitVec 5) (rs1 : BitVec 5) (vm : BitVec 1) : Encodes.Statement (.vfsubVf vd vs2 rs1 vm) :=
  fun _ => rfl

theorem Encodes.vfosumVs (vd : BitVec 5) (vs2 : BitVec 5) (vs1 : BitVec 5) (vm : BitVec 1) : Encodes.Statement (.vfosumVs vd vs2 vs1 vm) :=
  fun _ => rfl

theorem Encodes.vfmulVv (vd : BitVec 5) (vs2 : BitVec 5) (vs1 : BitVec 5) (vm : BitVec 1) : Encodes.Statement (.vfmulVv vd vs2 vs1 vm) :=
  fun _ => rfl

theorem Encodes.vfmulVf (vd : BitVec 5) (vs2 : BitVec 5) (rs1 : BitVec 5) (vm : BitVec 1) : Encodes.Statement (.vfmulVf vd vs2 rs1 vm) :=
  fun _ => rfl

theorem Encodes.vfdivVv (vd : BitVec 5) (vs2 : BitVec 5) (vs1 : BitVec 5) (vm : BitVec 1) : Encodes.Statement (.vfdivVv vd vs2 vs1 vm) :=
  fun _ => rfl

theorem Encodes.vfdivVf (vd : BitVec 5) (vs2 : BitVec 5) (rs1 : BitVec 5) (vm : BitVec 1) : Encodes.Statement (.vfdivVf vd vs2 rs1 vm) :=
  fun _ => rfl

theorem Encodes.vfminVv (vd : BitVec 5) (vs2 : BitVec 5) (vs1 : BitVec 5) (vm : BitVec 1) : Encodes.Statement (.vfminVv vd vs2 vs1 vm) :=
  fun _ => rfl

theorem Encodes.vfminVf (vd : BitVec 5) (vs2 : BitVec 5) (rs1 : BitVec 5) (vm : BitVec 1) : Encodes.Statement (.vfminVf vd vs2 rs1 vm) :=
  fun _ => rfl

theorem Encodes.vfminVs (vd : BitVec 5) (vs2 : BitVec 5) (vs1 : BitVec 5) (vm : BitVec 1) : Encodes.Statement (.vfminVs vd vs2 vs1 vm) :=
  fun _ => rfl

theorem Encodes.vfmaxVv (vd : BitVec 5) (vs2 : BitVec 5) (vs1 : BitVec 5) (vm : BitVec 1) : Encodes.Statement (.vfmaxVv vd vs2 vs1 vm) :=
  fun _ => rfl

theorem Encodes.vfmaxVf (vd : BitVec 5) (vs2 : BitVec 5) (rs1 : BitVec 5) (vm : BitVec 1) : Encodes.Statement (.vfmaxVf vd vs2 rs1 vm) :=
  fun _ => rfl

theorem Encodes.vfmaxVs (vd : BitVec 5) (vs2 : BitVec 5) (vs1 : BitVec 5) (vm : BitVec 1) : Encodes.Statement (.vfmaxVs vd vs2 vs1 vm) :=
  fun _ => rfl

theorem Encodes.vfmaccVv (vd : BitVec 5) (vs2 : BitVec 5) (vs1 : BitVec 5) (vm : BitVec 1) : Encodes.Statement (.vfmaccVv vd vs2 vs1 vm) :=
  fun _ => rfl

theorem Encodes.vfmaccVf (vd : BitVec 5) (vs2 : BitVec 5) (rs1 : BitVec 5) (vm : BitVec 1) : Encodes.Statement (.vfmaccVf vd vs2 rs1 vm) :=
  fun _ => rfl

theorem Encodes.vfmsacVv (vd : BitVec 5) (vs2 : BitVec 5) (vs1 : BitVec 5) (vm : BitVec 1) : Encodes.Statement (.vfmsacVv vd vs2 vs1 vm) :=
  fun _ => rfl

theorem Encodes.vfmsacVf (vd : BitVec 5) (vs2 : BitVec 5) (rs1 : BitVec 5) (vm : BitVec 1) : Encodes.Statement (.vfmsacVf vd vs2 rs1 vm) :=
  fun _ => rfl

theorem Encodes.vfnmaccVv (vd : BitVec 5) (vs2 : BitVec 5) (vs1 : BitVec 5) (vm : BitVec 1) : Encodes.Statement (.vfnmaccVv vd vs2 vs1 vm) :=
  fun _ => rfl

theorem Encodes.vfnmaccVf (vd : BitVec 5) (vs2 : BitVec 5) (rs1 : BitVec 5) (vm : BitVec 1) : Encodes.Statement (.vfnmaccVf vd vs2 rs1 vm) :=
  fun _ => rfl

theorem Encodes.vfnmsacVv (vd : BitVec 5) (vs2 : BitVec 5) (vs1 : BitVec 5) (vm : BitVec 1) : Encodes.Statement (.vfnmsacVv vd vs2 vs1 vm) :=
  fun _ => rfl

theorem Encodes.vfnmsacVf (vd : BitVec 5) (vs2 : BitVec 5) (rs1 : BitVec 5) (vm : BitVec 1) : Encodes.Statement (.vfnmsacVf vd vs2 rs1 vm) :=
  fun _ => rfl

theorem Encodes.vfsgnjVv (vd : BitVec 5) (vs2 : BitVec 5) (vs1 : BitVec 5) (vm : BitVec 1) : Encodes.Statement (.vfsgnjVv vd vs2 vs1 vm) :=
  fun _ => rfl

theorem Encodes.vfsgnjVf (vd : BitVec 5) (vs2 : BitVec 5) (rs1 : BitVec 5) (vm : BitVec 1) : Encodes.Statement (.vfsgnjVf vd vs2 rs1 vm) :=
  fun _ => rfl

theorem Encodes.vfsgnjnVv (vd : BitVec 5) (vs2 : BitVec 5) (vs1 : BitVec 5) (vm : BitVec 1) : Encodes.Statement (.vfsgnjnVv vd vs2 vs1 vm) :=
  fun _ => rfl

theorem Encodes.vfsgnjnVf (vd : BitVec 5) (vs2 : BitVec 5) (rs1 : BitVec 5) (vm : BitVec 1) : Encodes.Statement (.vfsgnjnVf vd vs2 rs1 vm) :=
  fun _ => rfl

theorem Encodes.vfcmpVv (cc : BitVec 3) (md : BitVec 2) (vs2 : BitVec 5) (vs1 : BitVec 5) (vm : BitVec 1) : Encodes.Statement (.vfcmpVv cc md vs2 vs1 vm) :=
  fun _ => rfl

theorem Encodes.vfcmpVf (cc : BitVec 3) (md : BitVec 2) (vs2 : BitVec 5) (rs1 : BitVec 5) (vm : BitVec 1) : Encodes.Statement (.vfcmpVf cc md vs2 rs1 vm) :=
  fun _ => rfl

theorem Encodes.vfsqrt (vd : BitVec 5) (vs2 : BitVec 5) (vm : BitVec 1) : Encodes.Statement (.vfsqrt vd vs2 vm) :=
  fun _ => rfl

theorem Encodes.vfclass (vd : BitVec 5) (vs2 : BitVec 5) (vm : BitVec 1) : Encodes.Statement (.vfclass vd vs2 vm) :=
  fun _ => rfl

theorem Encodes.vfexp2 (vd : BitVec 5) (vs2 : BitVec 5) (vm : BitVec 1) : Encodes.Statement (.vfexp2 vd vs2 vm) :=
  fun _ => rfl

theorem Encodes.vfrcp (vd : BitVec 5) (vs2 : BitVec 5) (vm : BitVec 1) : Encodes.Statement (.vfrcp vd vs2 vm) :=
  fun _ => rfl

theorem Encodes.vflog2 (vd : BitVec 5) (vs2 : BitVec 5) (vm : BitVec 1) : Encodes.Statement (.vflog2 vd vs2 vm) :=
  fun _ => rfl

theorem Encodes.vfwmaccF16Vv (vd : BitVec 5) (vs2 : BitVec 5) (vs1 : BitVec 5) (vm : BitVec 1) : Encodes.Statement (.vfwmaccF16Vv vd vs2 vs1 vm) :=
  fun _ => rfl

theorem Encodes.vfwmaccF16Vf (vd : BitVec 5) (vs2 : BitVec 5) (rs1 : BitVec 5) (vm : BitVec 1) : Encodes.Statement (.vfwmaccF16Vf vd vs2 rs1 vm) :=
  fun _ => rfl

theorem Encodes.vfwmaccBf16Vv (vd : BitVec 5) (vs2 : BitVec 5) (vs1 : BitVec 5) (vm : BitVec 1) : Encodes.Statement (.vfwmaccBf16Vv vd vs2 vs1 vm) :=
  fun _ => rfl

theorem Encodes.vfwmaccBf16Vf (vd : BitVec 5) (vs2 : BitVec 5) (rs1 : BitVec 5) (vm : BitVec 1) : Encodes.Statement (.vfwmaccBf16Vf vd vs2 rs1 vm) :=
  fun _ => rfl

theorem Encodes.vfcvt (vd : BitVec 5) (vs2 : BitVec 5) (sel : BitVec 5) (rf : BitVec 2) (vm : BitVec 1) : Encodes.Statement (.vfcvt vd vs2 sel rf vm) :=
  fun _ => rfl

theorem Encodes.vfwdotbs (vd : BitVec 5) (vs2 : BitVec 5) (vs1 : BitVec 5) (wf : BitVec 1) (af : BitVec 1) (vm : BitVec 1) : Encodes.Statement (.vfwdotbs vd vs2 vs1 wf af vm) :=
  fun _ => rfl

theorem Encodes.vseed (rs1 : BitVec 5) : Encodes.Statement (.vseed rs1) := fun _ => rfl

theorem Encodes.vsbase (rs1 : BitVec 5) : Encodes.Statement (.vsbase rs1) := fun _ => rfl

theorem Encodes.vsclVx (rs1 : BitVec 5) : Encodes.Statement (.vsclVx rs1) := fun _ => rfl

theorem Encodes.vbq (vd : BitVec 5) (vs2 : BitVec 5) (sr : BitVec 1) (fmt : BitVec 1) : Encodes.Statement (.vbq vd vs2 sr fmt) :=
  fun _ => rfl

theorem Encodes.vbdq (vd : BitVec 5) (vs2 : BitVec 5) (fmt : BitVec 1) (vm : BitVec 1) : Encodes.Statement (.vbdq vd vs2 fmt vm) :=
  fun _ => rfl

theorem Encodes.vfredbs (vd : BitVec 5) (vs2 : BitVec 5) (fmt : BitVec 1) (vm : BitVec 1) : Encodes.Statement (.vfredbs vd vs2 fmt vm) :=
  fun _ => rfl

theorem Encodes.vscl (vs2 : BitVec 5) : Encodes.Statement (.vscl vs2) := fun _ => rfl

theorem Encodes.vleE (mu : BitVec 1) (hint : BitVec 2) (vd : BitVec 5) (rs1 : BitVec 5) (w : BitVec 2) (vm : BitVec 1) : Encodes.Statement (.vleE mu hint vd rs1 w vm) :=
  fun _ => rfl

theorem Encodes.vseE (mu : BitVec 1) (hint : BitVec 2) (vs3 : BitVec 5) (rs1 : BitVec 5) (w : BitVec 2) (vm : BitVec 1) : Encodes.Statement (.vseE mu hint vs3 rs1 w vm) :=
  fun _ => rfl

theorem Encodes.vlseE (mu : BitVec 1) (hint : BitVec 2) (vd : BitVec 5) (rs1 : BitVec 5) (rs2 : BitVec 5) (w : BitVec 2) (vm : BitVec 1) : Encodes.Statement (.vlseE mu hint vd rs1 rs2 w vm) :=
  fun _ => rfl

theorem Encodes.vsseE (mu : BitVec 1) (hint : BitVec 2) (vs3 : BitVec 5) (rs1 : BitVec 5) (rs2 : BitVec 5) (w : BitVec 2) (vm : BitVec 1) : Encodes.Statement (.vsseE mu hint vs3 rs1 rs2 w vm) :=
  fun _ => rfl

theorem Encodes.vlxeE (mu : BitVec 1) (hint : BitVec 2) (vd : BitVec 5) (rs1 : BitVec 5) (vs2 : BitVec 5) (w : BitVec 2) (vm : BitVec 1) : Encodes.Statement (.vlxeE mu hint vd rs1 vs2 w vm) :=
  fun _ => rfl

theorem Encodes.vsxeE (mu : BitVec 1) (hint : BitVec 2) (vs3 : BitVec 5) (rs1 : BitVec 5) (vs2 : BitVec 5) (w : BitVec 2) (vm : BitVec 1) : Encodes.Statement (.vsxeE mu hint vs3 rs1 vs2 w vm) :=
  fun _ => rfl

theorem Encodes.vlt2E (mu : BitVec 1) (hint : BitVec 2) (vd : BitVec 5) (rs1 : BitVec 5) (w : BitVec 2) (vm : BitVec 1) : Encodes.Statement (.vlt2E mu hint vd rs1 w vm) :=
  fun _ => rfl

theorem Encodes.vst2E (mu : BitVec 1) (hint : BitVec 2) (vs3 : BitVec 5) (rs1 : BitVec 5) (w : BitVec 2) (vm : BitVec 1) : Encodes.Statement (.vst2E mu hint vs3 rs1 w vm) :=
  fun _ => rfl

theorem Encodes.vlr (mu : BitVec 1) (hint : BitVec 2) (vd : BitVec 5) (rs1 : BitVec 5) : Encodes.Statement (.vlr mu hint vd rs1) :=
  fun _ => rfl

theorem Encodes.vsr (mu : BitVec 1) (hint : BitVec 2) (vs3 : BitVec 5) (rs1 : BitVec 5) : Encodes.Statement (.vsr mu hint vs3 rs1) :=
  fun _ => rfl

theorem Encodes.loadLanded (core : Nat) (index : Nat) : Encodes.Statement (.loadLanded core index) := fun h => nomatch h

theorem Encodes.vprefetch (mu : BitVec 1) (hint : BitVec 2) (rs1 : BitVec 5) (rs2 : BitVec 5) : Encodes.Statement (.vprefetch mu hint rs1 rs2) :=
  fun _ => rfl

theorem Encodes.vresid (mu : BitVec 1) (hint : BitVec 2) (rs1 : BitVec 5) (rs2 : BitVec 5) : Encodes.Statement (.vresid mu hint rs1 rs2) :=
  fun _ => rfl

theorem Encodes.mdiscard (mu : BitVec 1) (hint : BitVec 2) (rs1 : BitVec 5) (rs2 : BitVec 5) : Encodes.Statement (.mdiscard mu hint rs1 rs2) :=
  fun _ => rfl

theorem Encodes.cclean (mu : BitVec 1) (hint : BitVec 2) (rs1 : BitVec 5) (rs2 : BitVec 5) : Encodes.Statement (.cclean mu hint rs1 rs2) :=
  fun _ => rfl

theorem Encodes.cinval (mu : BitVec 1) (hint : BitVec 2) (rs1 : BitVec 5) (rs2 : BitVec 5) : Encodes.Statement (.cinval mu hint rs1 rs2) :=
  fun _ => rfl

theorem Encodes.tlbinv (mu : BitVec 1) (hint : BitVec 2) (rs1 : BitVec 5) (rs2 : BitVec 5) : Encodes.Statement (.tlbinv mu hint rs1 rs2) :=
  fun _ => rfl

theorem Encodes.l2conv (mu : BitVec 1) (hint : BitVec 2) (rd : BitVec 5) (rs1 : BitVec 5) : Encodes.Statement (.l2conv mu hint rd rs1) :=
  fun _ => rfl

theorem Encodes.l2rest (mu : BitVec 1) (hint : BitVec 2) (rd : BitVec 5) (rs1 : BitVec 5) : Encodes.Statement (.l2rest mu hint rd rs1) :=
  fun _ => rfl

theorem Encodes.pageRevival (core : Nat) (va : BitVec 64) : Encodes.Statement (.pageRevival core va) := fun h => nomatch h

theorem Encodes.vamo (op : BitVec 3) (vd : BitVec 5) (rs1 : BitVec 5) (vs2 : BitVec 5) (vm : BitVec 1) : Encodes.Statement (.vamo op vd rs1 vs2 vm) :=
  fun _ => rfl

theorem Encodes.vredmem (op : BitVec 5) (vs3 : BitVec 5) (rs1 : BitVec 5) (vm : BitVec 1) : Encodes.Statement (.vredmem op vs3 rs1 vm) :=
  fun _ => rfl

theorem Encodes.vglk (vd : BitVec 5) (rs1 : BitVec 5) (vs2 : BitVec 5) (vm : BitVec 1) : Encodes.Statement (.vglk vd rs1 vs2 vm) :=
  fun _ => rfl

theorem Encodes.vscc (md : BitVec 2) (vs3 : BitVec 5) (rs1 : BitVec 5) (vs2 : BitVec 5) (vm : BitVec 1) : Encodes.Statement (.vscc md vs3 rs1 vs2 vm) :=
  fun _ => rfl

theorem Encodes.kfence (pred : BitVec 4) (succ : BitVec 4) (scope : BitVec 3) : Encodes.Statement (.kfence pred succ scope) :=
  fun _ => rfl

theorem Encodes.vfencebar (rd : BitVec 5) (rs1 : BitVec 5) : Encodes.Statement (.vfencebar rd rs1) := fun _ => rfl

theorem Encodes.barinit (rd : BitVec 5) (rs1 : BitVec 5) (rs2 : BitVec 5) : Encodes.Statement (.barinit rd rs1 rs2) :=
  fun _ => rfl

theorem Encodes.barwait (rd : BitVec 5) (rs1 : BitVec 5) (rs2 : BitVec 5) : Encodes.Statement (.barwait rd rs1 rs2) :=
  fun _ => rfl

theorem Encodes.qdrain (mask : BitVec 4) : Encodes.Statement (.qdrain mask) := fun _ => rfl

theorem Encodes.reservationTimeout (core : Nat) : Encodes.Statement (.reservationTimeout core) := fun h => nomatch h

theorem Encodes.vectorReservationTimeout (core : Nat) (index : Nat) : Encodes.Statement (.vectorReservationTimeout core index) :=
  fun h => nomatch h

theorem Encodes.tagScrub (die : Nat) (slice : Nat) : Encodes.Statement (.tagScrub die slice) := fun h => nomatch h

theorem Encodes.lmode (mode : BitVec 5) : Encodes.Statement (.lmode mode) := fun _ => rfl

theorem Encodes.lmodeDrained (core : Nat) : Encodes.Statement (.lmodeDrained core) := fun h => nomatch h

theorem Encodes.lmodeSwitchDone (core : Nat) : Encodes.Statement (.lmodeSwitchDone core) := fun h => nomatch h

theorem Encodes.mclaim (slot : BitVec 5) : Encodes.Statement (.mclaim slot) := fun _ => rfl

theorem Encodes.mclaimRx (slot : BitVec 5) : Encodes.Statement (.mclaimRx slot) := fun _ => rfl

theorem Encodes.mrelease (slot : BitVec 5) : Encodes.Statement (.mrelease slot) := fun _ => rfl

theorem Encodes.mtzero (tile : BitVec 5) : Encodes.Statement (.mtzero tile) := fun _ => rfl

theorem Encodes.mtdrain (tile : BitVec 5) : Encodes.Statement (.mtdrain tile) := fun _ => rfl

theorem Encodes.mchainTacc0 (fmt : BitVec 2) (rd : BitVec 5) (rs1 : BitVec 5) (rs2 : BitVec 5) : Encodes.Statement (.mchainTacc0 fmt rd rs1 rs2) :=
  fun _ => rfl

theorem Encodes.mchainTacc1 (fmt : BitVec 2) (rd : BitVec 5) (rs1 : BitVec 5) (rs2 : BitVec 5) : Encodes.Statement (.mchainTacc1 fmt rd rs1 rs2) :=
  fun _ => rfl

theorem Encodes.chainLanded (core : Nat) (slot : Nat) : Encodes.Statement (.chainLanded core slot) := fun h => nomatch h

theorem Encodes.mslotld (slot : BitVec 5) (rs1 : BitVec 5) : Encodes.Statement (.mslotld slot rs1) := fun _ => rfl

theorem Encodes.slotFilled (core : Nat) (slot : Nat) : Encodes.Statement (.slotFilled core slot) := fun h => nomatch h

theorem Encodes.mwloadGroup0 (wf : BitVec 2) (slot : BitVec 5) : Encodes.Statement (.mwloadGroup0 wf slot) := fun _ => rfl

theorem Encodes.mwloadGroup1 (wf : BitVec 2) (slot : BitVec 5) : Encodes.Statement (.mwloadGroup1 wf slot) := fun _ => rfl

theorem Encodes.mtmv (vd : BitVec 5) (tile : BitVec 5) (rs1 : BitVec 5) : Encodes.Statement (.mtmv vd tile rs1) :=
  fun _ => rfl

theorem Encodes.mtmvc (vd : BitVec 5) (tile : BitVec 5) (rs1 : BitVec 5) : Encodes.Statement (.mtmvc vd tile rs1) :=
  fun _ => rfl

theorem Encodes.mvtm (tile : BitVec 5) (vs2 : BitVec 5) (rs1 : BitVec 5) : Encodes.Statement (.mvtm tile vs2 rs1) :=
  fun _ => rfl

theorem Encodes.mvtmc (tile : BitVec 5) (vs2 : BitVec 5) (rs1 : BitVec 5) : Encodes.Statement (.mvtmc tile vs2 rs1) :=
  fun _ => rfl

theorem Encodes.mopa (g : BitVec 1) (fm : BitVec 2) (tile : BitVec 5) (vs1 : BitVec 5) (vs2 : BitVec 5) : Encodes.Statement (.mopa g fm tile vs1 vs2) :=
  fun _ => rfl

theorem Encodes.mopak (g : BitVec 1) (fm : BitVec 2) (tile : BitVec 5) (vs1 : BitVec 5) (vs2 : BitVec 5) : Encodes.Statement (.mopak g fm tile vs1 vs2) :=
  fun _ => rfl

theorem Encodes.mws (g : BitVec 1) (fm : BitVec 2) (tile : BitVec 5) (vs1 : BitVec 5) : Encodes.Statement (.mws g fm tile vs1) :=
  fun _ => rfl

theorem Encodes.mtbcast (rd : BitVec 5) (rs1 : BitVec 5) (rs2 : BitVec 5) : Encodes.Statement (.mtbcast rd rs1 rs2) :=
  fun _ => rfl

theorem Encodes.mtwait (rd : BitVec 5) (rs1 : BitVec 5) : Encodes.Statement (.mtwait rd rs1) := fun _ => rfl

theorem Encodes.mtqrd (rd : BitVec 5) (rs1 : BitVec 5) : Encodes.Statement (.mtqrd rd rs1) := fun _ => rfl

theorem Encodes.mtqwr (rs1 : BitVec 5) (rs2 : BitVec 5) : Encodes.Statement (.mtqwr rs1 rs2) := fun _ => rfl

theorem Encodes.mtresume (rd : BitVec 5) (rs1 : BitVec 5) : Encodes.Statement (.mtresume rd rs1) := fun _ => rfl

theorem Encodes.mtresumeSkip (rd : BitVec 5) (rs1 : BitVec 5) : Encodes.Statement (.mtresumeSkip rd rs1) := fun _ => rfl

theorem Encodes.mtkill (rd : BitVec 5) (rs1 : BitVec 5) : Encodes.Statement (.mtkill rd rs1) := fun _ => rfl

theorem Encodes.mtfault (item : BitVec 2) (rd : BitVec 5) (rs1 : BitVec 5) : Encodes.Statement (.mtfault item rd rs1) :=
  fun _ => rfl

theorem Encodes.mtfetch (ms1 : BitVec 5) : Encodes.Statement (.mtfetch ms1) := fun _ => rfl

theorem Encodes.mtfetchNz (ms1 : BitVec 5) (ms2 : BitVec 5) : Encodes.Statement (.mtfetchNz ms1 ms2) := fun _ => rfl

theorem Encodes.mtfetchZ (ms1 : BitVec 5) (ms2 : BitVec 5) : Encodes.Statement (.mtfetchZ ms1 ms2) := fun _ => rfl

theorem Encodes.mtstop : Encodes.Statement .mtstop := fun _ => rfl

theorem Encodes.mtsend (rel : BitVec 1) (dir : BitVec 1) (ms1 : BitVec 5) : Encodes.Statement (.mtsend rel dir ms1) :=
  fun _ => rfl

theorem Encodes.mtrecv (acq : BitVec 1) (dir : BitVec 1) (md : BitVec 5) : Encodes.Statement (.mtrecv acq dir md) :=
  fun _ => rfl

theorem Encodes.mtid (item : BitVec 2) (md : BitVec 5) : Encodes.Statement (.mtid item md) := fun _ => rfl

theorem Encodes.blockFetch (core : Nat) (thread : Nat) : Encodes.Statement (.blockFetch core thread) := fun h => nomatch h

theorem Encodes.mtIssue (core : Nat) (lane : Nat) : Encodes.Statement (.mtIssue core lane) := fun h => nomatch h

theorem Encodes.mtWordComplete (core : Nat) (thread : Nat) : Encodes.Statement (.mtWordComplete core thread) :=
  fun h => nomatch h

theorem Encodes.mtUnblock (core : Nat) (thread : Nat) : Encodes.Statement (.mtUnblock core thread) := fun h => nomatch h

theorem Encodes.escapeMove (core : Nat) : Encodes.Statement (.escapeMove core) := fun h => nomatch h

theorem Encodes.cpissue (rd : BitVec 5) (rs1 : BitVec 5) (rs2 : BitVec 5) : Encodes.Statement (.cpissue rd rs1 rs2) :=
  fun _ => rfl

theorem Encodes.cpissuePut (rd : BitVec 5) (rs1 : BitVec 5) (rs2 : BitVec 5) : Encodes.Statement (.cpissuePut rd rs1 rs2) :=
  fun _ => rfl

theorem Encodes.cpissueGet (rd : BitVec 5) (rs1 : BitVec 5) (rs2 : BitVec 5) : Encodes.Statement (.cpissueGet rd rs1 rs2) :=
  fun _ => rfl

theorem Encodes.cpwait (rd : BitVec 5) (rs1 : BitVec 5) : Encodes.Statement (.cpwait rd rs1) := fun _ => rfl

theorem Encodes.sleeptil (rd : BitVec 5) (rs1 : BitVec 5) : Encodes.Statement (.sleeptil rd rs1) := fun _ => rfl

theorem Encodes.cpsusp (rd : BitVec 5) (rs1 : BitVec 5) : Encodes.Statement (.cpsusp rd rs1) := fun _ => rfl

theorem Encodes.cpresm (rd : BitVec 5) (rs1 : BitVec 5) : Encodes.Statement (.cpresm rd rs1) := fun _ => rfl

theorem Encodes.cpcancel (rd : BitVec 5) (rs1 : BitVec 5) : Encodes.Statement (.cpcancel rd rs1) := fun _ => rfl

theorem Encodes.cpstat (rd : BitVec 5) (rs1 : BitVec 5) (item : BitVec 10) : Encodes.Statement (.cpstat rd rs1 item) :=
  fun _ => rfl

theorem Encodes.copyAccept (core : Nat) : Encodes.Statement (.copyAccept core) := fun h => nomatch h

theorem Encodes.copyBegin (core : Nat) (entry : Nat) : Encodes.Statement (.copyBegin core entry) := fun h => nomatch h

theorem Encodes.copyDone (core : Nat) (entry : Nat) (chunks : Nat) : Encodes.Statement (.copyDone core entry chunks) :=
  fun h => nomatch h

theorem Encodes.copyFault (core : Nat) (entry : Nat) : Encodes.Statement (.copyFault core entry) := fun h => nomatch h

theorem Encodes.copyStop (core : Nat) (entry : Nat) (chunks : Nat) : Encodes.Statement (.copyStop core entry chunks) :=
  fun h => nomatch h

theorem Encodes.promiseMiss (core : Nat) (entry : Nat) : Encodes.Statement (.promiseMiss core entry) := fun h => nomatch h

theorem Encodes.ctxsave (rd : BitVec 5) (flags : BitVec 3) : Encodes.Statement (.ctxsave rd flags) := fun _ => rfl

theorem Encodes.ctxload : Encodes.Statement .ctxload := fun _ => rfl

theorem Encodes.kfail (rs1 : BitVec 5) (rs2 : BitVec 5) : Encodes.Statement (.kfail rs1 rs2) := fun _ => rfl

theorem Encodes.trapset (rd : BitVec 5) (rs1 : BitVec 5) (rs2 : BitVec 5) : Encodes.Statement (.trapset rd rs1 rs2) :=
  fun _ => rfl

theorem Encodes.trapsetRet : Encodes.Statement .trapsetRet := fun _ => rfl

theorem Encodes.storageErrorTrap (core : Nat) : Encodes.Statement (.storageErrorTrap core) := fun h => nomatch h

theorem Encodes.pwreq (rd : BitVec 5) (rs1 : BitVec 5) (rs2 : BitVec 5) : Encodes.Statement (.pwreq rd rs1 rs2) :=
  fun _ => rfl

theorem Encodes.pwpin (rd : BitVec 5) (rs1 : BitVec 5) : Encodes.Statement (.pwpin rd rs1) := fun _ => rfl

theorem Encodes.pwgrant (rd : BitVec 5) (rs1 : BitVec 5) : Encodes.Statement (.pwgrant rd rs1) := fun _ => rfl

theorem Encodes.pwslot (rd : BitVec 5) (rs1 : BitVec 5) (rs2 : BitVec 5) : Encodes.Statement (.pwslot rd rs1 rs2) :=
  fun _ => rfl

theorem Encodes.pwstat (rd : BitVec 5) (rs1 : BitVec 5) (item : BitVec 10) : Encodes.Statement (.pwstat rd rs1 item) :=
  fun _ => rfl

theorem Encodes.tokenRefill : Encodes.Statement .tokenRefill := fun h => nomatch h

theorem Encodes.coreQuiet (core : Nat) : Encodes.Statement (.coreQuiet core) := fun h => nomatch h

theorem Encodes.heldLoadRelease (core : Nat) : Encodes.Statement (.heldLoadRelease core) := fun h => nomatch h

theorem Encodes.coreGate (core : Nat) : Encodes.Statement (.coreGate core) := fun h => nomatch h

theorem Encodes.coreWakeReady (core : Nat) : Encodes.Statement (.coreWakeReady core) := fun h => nomatch h

theorem Encodes.railAtTarget (cluster : Nat) : Encodes.Statement (.railAtTarget cluster) := fun h => nomatch h

theorem Encodes.clockAtLevel (cluster : Nat) : Encodes.Statement (.clockAtLevel cluster) := fun h => nomatch h

theorem Encodes.ringLatch (cluster : Nat) : Encodes.Statement (.ringLatch cluster) := fun h => nomatch h

theorem Encodes.limitRecordUpdate (cluster : Nat) (maxlvl : BitVec 4) (ceil : BitVec 8) (cap : BitVec 20) : Encodes.Statement (.limitRecordUpdate cluster maxlvl ceil cap) :=
  fun h => nomatch h

theorem Encodes.telemetrySample : Encodes.Statement .telemetrySample := fun h => nomatch h

theorem Encodes.hbmLaneLend (die : Nat) (channel : Nat) : Encodes.Statement (.hbmLaneLend die channel) := fun h => nomatch h

theorem Encodes.hbmLaneReturn (die : Nat) (channel : Nat) : Encodes.Statement (.hbmLaneReturn die channel) := fun h => nomatch h

theorem Encodes.correctedError (die : Nat) (source : BitVec 8) (unit : BitVec 16) (addr : BitVec 64) (lane : BitVec 16) : Encodes.Statement (.correctedError die source unit addr lane) :=
  fun h => nomatch h

theorem Encodes.uncorrectableError (die : Nat) (source : BitVec 8) (unit : BitVec 16) (addr : BitVec 64) (lane : BitVec 16) : Encodes.Statement (.uncorrectableError die source unit addr lane) :=
  fun h => nomatch h

theorem Encodes.fatalError (die : Nat) (source : BitVec 8) (unit : BitVec 16) (addr : BitVec 64) : Encodes.Statement (.fatalError die source unit addr) :=
  fun h => nomatch h

theorem Encodes.moduleReset : Encodes.Statement .moduleReset := fun h => nomatch h

theorem Encodes.go (word : BitVec 32) : Encodes.Statement (.go word) := fun h => nomatch h

theorem Encodes.bootVerify : Encodes.Statement .bootVerify := fun h => nomatch h

theorem Encodes.maquetteService (diesok : BitVec 24) : Encodes.Statement (.maquetteService diesok) := fun h => nomatch h

theorem Encodes.fullService (diesok : BitVec 24) : Encodes.Statement (.fullService diesok) := fun h => nomatch h

theorem Encodes.tail (vf : Nat) (value : BitVec 64) : Encodes.Statement (.tail vf value) := fun h => nomatch h

theorem Encodes.launchPacket (vf : Nat) : Encodes.Statement (.launchPacket vf) := fun h => nomatch h

theorem Encodes.hostWrite (addr : Nat) (bytes : List (BitVec 8)) : Encodes.Statement (.hostWrite addr bytes) :=
  fun h => nomatch h

theorem Encodes.hostRead (addr : Nat) (len : Nat) : Encodes.Statement (.hostRead addr len) := fun h => nomatch h

theorem Encodes.hostAtomicop (addr : Nat) (op : Nat) (width : Nat) (operand : BitVec 64) (compare : BitVec 64) : Encodes.Statement (.hostAtomicop addr op width operand compare) :=
  fun h => nomatch h

theorem Encodes.atsInvalidation (addr : Nat) (len : Nat) : Encodes.Statement (.atsInvalidation addr len) := fun h => nomatch h

theorem Encodes.junctionPortDown (port : Nat) : Encodes.Statement (.junctionPortDown port) := fun h => nomatch h

theorem Encodes.portRetrain (port : Nat) : Encodes.Statement (.portRetrain port) := fun h => nomatch h

theorem Encodes.maromFailover : Encodes.Statement .maromFailover := fun h => nomatch h

theorem Encodes.kmctlTsReset (value : BitVec 2) : Encodes.Statement (.kmctlTsReset value) := fun h => nomatch h

theorem Encodes.kmctlTsSet (value : BitVec 2) : Encodes.Statement (.kmctlTsSet value) := fun h => nomatch h

theorem Encodes.registerWrite (function : Nat) (offset : Nat) (value : BitVec 64) : Encodes.Statement (.registerWrite function offset value) :=
  fun h => nomatch h

theorem Encodes.junctionPortRequest (port : Nat) (put : Bool) (offset : Nat) (bytes : List (BitVec 8)) : Encodes.Statement (.junctionPortRequest port put offset bytes) :=
  fun h => nomatch h

theorem Encodes.wayDrainComplete (die : Nat) (slice : Nat) : Encodes.Statement (.wayDrainComplete die slice) :=
  fun h => nomatch h

end Sys2Proof.Laws
end

