-- ==== Sys2Proof/Laws/Queue.lean ====
section
/-! SUPPORT. The regions' queues: what a list of pairs gives after one key's value was replaced or taken out, what each queue holds
once one was replaced, and that the device's writes to memory change none (04_work R73, R74). -/

namespace Sys2Proof.Machine

@[simp] theorem lookup_assign_self (k : Nat) (v : α) (l : List (Nat × α)) : lookup k (assign k v l) = some v := by
  induction l with
  | nil => simp [assign, lookup]
  | cons p l ih => by_cases h : p.1 = k <;> simp [assign, lookup, h, ih]

theorem lookup_assign_ne {j k : Nat} (h : j ≠ k) (v : α) (l : List (Nat × α)) : lookup j (assign k v l) = lookup j l := by
  induction l with
  | nil => simp [assign, lookup, h.symm]
  | cons p l ih =>
    by_cases hp : p.1 = k
    · simp [assign, lookup, hp, h.symm]
    · simp [assign, lookup, hp, ih]

@[simp] theorem lookup_unassign_self (k : Nat) (l : List (Nat × α)) : lookup k (unassign k l) = none := by
  induction l with
  | nil => rfl
  | cons p l ih => by_cases h : p.1 = k <;> simp_all [unassign, lookup]

theorem lookup_unassign_ne {j k : Nat} (h : j ≠ k) (l : List (Nat × α)) : lookup j (unassign k l) = lookup j l := by
  induction l with
  | nil => rfl
  | cons p l ih =>
    by_cases hp : p.1 = k
    · simp_all [unassign, lookup, h.symm]
    · by_cases hj : p.1 = j <;> simp_all [unassign, lookup]

/-- A queue is what it was replaced by. -/
@[simp] theorem State.setQueue_self (g : Nat) (l : List Word) (s : State) : (s.setQueue g l).queue g = l := by
  cases l <;> simp [State.queue, State.setQueue]

/-- The queues of the other regions stay. -/
theorem State.setQueue_ne {g h : Nat} (hg : h ≠ g) (l : List Word) (s : State) : (s.setQueue g l).queue h = s.queue h := by
  cases l <;> simp [State.queue, State.setQueue, lookup_assign_ne hg, lookup_unassign_ne hg]

@[simp] theorem State.setQueue_core (g : Nat) (l : List Word) (s : State) : (s.setQueue g l).core = s.core := rfl
@[simp] theorem State.setQueue_others (g : Nat) (l : List Word) (s : State) : (s.setQueue g l).others = s.others := rfl
@[simp] theorem State.setQueue_mem (g : Nat) (l : List Word) (s : State) : (s.setQueue g l).mem = s.mem := rfl
@[simp] theorem State.setQueue_dies (g : Nat) (l : List Word) (s : State) : (s.setQueue g l).dies = s.dies := rfl
@[simp] theorem State.setQueue_kregbase (g : Nat) (l : List Word) (s : State) : (s.setQueue g l).kregbase = s.kregbase := rfl
@[simp] theorem State.setQueue_live (g : Nat) (l : List Word) (s : State) : (s.setQueue g l).live = s.live := rfl
@[simp] theorem State.setQueue_domains (g : Nat) (l : List Word) (s : State) : (s.setQueue g l).domains = s.domains := rfl

/-- Two states with the same list of queues have the same queues. -/
theorem State.queue_congr {s t : State} (h : t.queues = s.queues) (g : Nat) : t.queue g = s.queue g := by simp [State.queue, h]

/-- A device's write changes no queue, wherever it writes. -/
@[simp] theorem State.deviceWrite_queues (pa n v : Nat) (s : State) : (s.deviceWrite pa n v).queues = s.queues := by
  have h : (s.reviveAt none none pa).queues = s.queues := by unfold State.reviveAt; split <;> rfl
  exact h

@[simp] theorem State.deviceWrite_queue (pa n v g : Nat) (s : State) : (s.deviceWrite pa n v).queue g = s.queue g :=
  State.queue_congr (State.deviceWrite_queues pa n v s) g

@[simp] theorem State.putRcb_queue (k off n v g : Nat) (s : State) : (s.putRcb k off n v).queue g = s.queue g :=
  State.deviceWrite_queue _ n v g s

end Sys2Proof.Machine
end

