-- ==== Sys2Proof/Tests/Slice0.lean ====
section
/-! SUPPORT. Tests. Every expected value is written out from the spec: the words are those of its worked examples or are
built field by field from its encoding tables; the witnesses show that the hypotheses of each statement can be met. -/

namespace Sys2Proof.Tests

open Sys2Proof.Machine

set_option Elab.async false

/-- The state after an instruction. -/
def ran (i : Instr) (s : State) : State := match exec i s with
  | .next t => t
  | _ => s

/-! ### Well-formed instructions: one term that each check refuses -/

theorem test_rejects_fence_mode : (Instr.fence 1 15 15 0 0).wellFormed = false := by decide

theorem test_rejects_rounding_mode :
    ∀ i ∈ [Instr.faddS 1 2 3 5, .fsqrtS 1 2 6, .fmaddS 1 2 3 4 5, .fnmaddS 1 2 3 4 6, .fcvtWS 1 2 5, .fcvtSLu 1 2 6],
      i.wellFormed = false := by decide

theorem test_rejects_vregs_code : ∀ c ∈ [0#5, 4#5, 31#5], (Instr.vregs 5 c).wellFormed = false := by decide

/-- The hint 3 that must be understood (R35). -/
theorem test_rejects_hint :
    ∀ i ∈ [Instr.vleE 1 3 8 10 2 1, .vseE 1 3 8 10 2 1, .vlseE 1 3 8 10 11 2 1, .vlxeE 1 3 8 10 4 2 1, .vlt2E 1 3 8 10 1 1,
        .vlr 1 3 8 10, .vsr 1 3 8 10, .vprefetch 1 3 10 11, .mdiscard 1 3 10 11, .tlbinv 1 3 10 11, .l2conv 1 3 12 13],
      i.wellFormed = false := by decide

theorem test_rejects_vamo_operation : (Instr.vamo 7 8 10 4 1).wellFormed = false := by decide

theorem test_rejects_vredmem_operation : (Instr.vredmem 9 8 10 1).wellFormed = false := by decide

theorem test_rejects_fence_scope : (Instr.kfence 3 3 5).wellFormed = false := by decide

theorem test_rejects_lane_mode : (Instr.lmode 3).wellFormed = false := by decide

theorem test_rejects_slot :
    ∀ i ∈ [Instr.mclaim 8, .mclaimRx 8, .mrelease 31, .mslotld 8 10, .mwloadGroup0 0 8, .mwloadGroup1 0 8],
      i.wellFormed = false := by decide

theorem test_rejects_weight_format : (Instr.mwloadGroup1 3 0).wellFormed = false := by decide

theorem test_rejects_tile :
    ∀ i ∈ [Instr.mtzero 2, .mtdrain 2, .mtmv 8 2 10, .mtmvc 8 2 10, .mvtm 2 8 10, .mvtmc 2 8 10, .mopa 0 0 2 8 16,
        .mopak 0 0 2 8 16, .mws 0 0 2 8], i.wellFormed = false := by decide

theorem test_rejects_product_format :
    ∀ i ∈ [Instr.mopa 1 3 0 8 16, .mopak 1 3 0 8 16, .mws 1 1 0 8], i.wellFormed = false := by decide

/-! ### Decoding: the words of the spec's worked examples, and words built from its encoding tables -/

/-- RV64 words, field by field (R29, R59). -/
theorem test_decode_control :
    ([0xFFF#12 ++ 1#5 ++ 0#3 ++ 5#5 ++ 0x13#7, 0x12345#20 ++ 7#5 ++ 0x37#7,
      0x20#7 ++ 3#5 ++ 4#5 ++ 5#3 ++ 9#5 ++ 0x3B#7, 0#1 ++ 2#10 ++ 1#1 ++ 0#8 ++ 1#5 ++ 0x6F#7,
      1#1 ++ 0x3F#6 ++ 2#5 ++ 1#5 ++ 1#3 ++ 0xE#4 ++ 1#1 ++ 0x63#7,
      2#5 ++ 1#1 ++ 0#1 ++ 0#5 ++ 10#5 ++ 2#3 ++ 11#5 ++ 0x2F#7, 8#4 ++ 3#4 ++ 3#4 ++ 0#5 ++ 0#3 ++ 0#5 ++ 0x0F#7,
      0x305#12 ++ 5#5 ++ 1#3 ++ 0#5 ++ 0x73#7, 0x302#12 ++ 0#5 ++ 0#3 ++ 0#5 ++ 0x73#7,
      0x09#7 ++ 4#5 ++ 3#5 ++ 0#3 ++ 0#5 ++ 0x73#7, 3#5 ++ 0#2 ++ 2#5 ++ 1#5 ++ 7#3 ++ 4#5 ++ 0x43#7] : List Word32).map decode =
      [.ok (.addi 5 1 0xFFF), .ok (.lui 7 0x12345), .ok (.sraw 9 4 3), .ok (.jal 1 0x402), .ok (.bne 1 2 0xFFE),
      .ok (.lrW 11 10 1 0), .ok (.fence 8 3 3 0 0), .ok (.csrrw 0 5 0x305), .ok .mret, .ok (.sfenceVma 3 4),
      .ok (.fmaddS 4 1 2 3 7)] := by rfl

/-- Chapters 03, 04, 15 and 17 (R66, R67, R87, R90, R91, R95, R351, R371, R372). -/
theorem test_decode_system :
    ([0x0000547B#32, 0x800055FB#32, 0x804052FB#32, 0x000682FB#32, 0x0600007B#32, 0x0400037B#32, 0x8040047B#32,
      0x0400307B#32, 0x8030437B#32, 0x802343FB#32, 0x000F4FFB#32] : List Word32).map decode =
      [.ok (.kclock 8), .ok (.kident 11 0), .ok (.kident 5 4), .ok (.cspawn 5 13), .ok .cfinish, .ok (.stclaim 6),
      .ok (.cinfo 8 4), .ok (.kfail 0 0), .ok (.pwstat 6 0 3), .ok (.pwstat 7 6 2), .ok (.pwreq 31 30 0)] := by rfl

/-- Chapters 05 to 07 and 17 to 19 (R111 to R133, R143 to R172). -/
theorem test_decode_vector :
    ([0x00D613FB#32, 0x022012FB#32, 0x80A6137B#32, 0x62869E0B#32, 0x7600770B#32, 0x7880780B#32, 0x7602720B#32,
      0x1A4F920B#32, 0x2651228B#32, 0x0256928B#32, 0x0284D48B#32, 0x7622028B#32, 0x778E918B#32, 0x7E0C010B#32,
      0x7E07920B#32] : List Word32).map decode =
      [.ok (.vcfg 7 12 13), .ok (.vregs 5 2), .ok (.vcfgi 6 12 0x00A), .ok (.vcmpVx 7 0 8 13 1),
      .ok (.vmpopc 14 0 1), .ok (.vcompress 16 8), .ok (.vid 4 1), .ok (.vandVx 4 4 31 1), .ok (.vsllVi 5 5 2 1),
      .ok (.vaddVx 5 5 13 1), .ok (.vaddVs 9 8 9 1), .ok (.vpermVv 5 2 4 1), .ok (.vslideVx 3 24 29 1),
      .ok (.vmvVV 2 24), .ok (.vmvVX 4 15)] := by rfl

theorem test_decode_vector_float :
    ([0x8086520B#32, 0x8486528B#32, 0x8284850B#32, 0x87828C0B#32, 0x8F828C0B#32, 0x9621810B#32, 0x9A43840B#32,
      0xB7817C0B#32, 0xD280760B#32, 0xD2C2780B#32, 0xD2C37A0B#32] : List Word32).map decode =
      [.ok (.vftsumVs 4 8 12 0), .ok (.vfosumVs 5 8 12 0), .ok (.vfaddVv 10 8 9 1), .ok (.vfsubVv 24 24 5 1),
      .ok (.vfdivVv 24 24 5 1), .ok (.vfmaxVv 2 2 3 1), .ok (.vfmaccVv 8 4 7 1), .ok (.vfexp2 24 24 1),
      .ok (.vbq 12 8 0 0), .ok (.vbdq 16 12 0 1), .ok (.vfredbs 20 12 0 1)] := by rfl

/-- Chapters 08, 09, 12 and 13 (R191 to R196, R213, R293 to R302, R320 to R326). -/
theorem test_decode_memory :
    ([0x0205A42B#32, 0x0E06A42B#32, 0x2205A82B#32, 0x8245242B#32, 0xC207142B#32, 0xE266B62B#32, 0xEA0535AB#32,
      0xE22737AB#32, 0xE045142B#32, 0xF44514AB#32, 0xE609A02B#32, 0xEBC7A3AB#32, 0xEF49A02B#32, 0xF200222B#32,
      0x00D7297B#32, 0x80192A7B#32, 0x080A2EFB#32, 0x06092F7B#32] : List Word32).map decode =
      [.ok (.vleE 0 0 8 11 2 1), .ok (.vleE 0 3 8 13 2 1), .ok (.vseE 0 0 16 11 2 1), .ok (.vlxeE 0 0 8 10 4 2 1),
      .ok (.vlt2E 0 0 8 14 1 1), .ok (.l2conv 0 0 12 13), .ok (.vprefetch 0 2 10 11), .ok (.mdiscard 0 0 14 15),
      .ok (.vglk 8 10 4 0), .ok (.vscc 1 9 10 4 0), .ok (.vfencebar 0 19), .ok (.barinit 7 15 28),
      .ok (.barwait 0 19 20), .ok (.qdrain 4), .ok (.cpissue 18 14 13), .ok (.cpstat 20 18 1),
      .ok (.sleeptil 29 20), .ok (.cpwait 30 18)] := by rfl

/-- Chapters 10 and 11 (R233 to R248, R259 to R268). -/
theorem test_decode_matrix_and_threads :
    ([0x0000015B#32, 0x0000005B#32, 0x1800005B#32, 0x2104205B#32, 0x2304205B#32, 0x20C120DB#32, 0x1809985B#32,
      0x181998DB#32, 0x000000DB#32, 0x0066C3DB#32, 0x08004EDB#32, 0x1900405B#32, 0x100F44DB#32, 0x1000D05B#32,
      0x1A0051DB#32, 0x1200D05B#32, 0x180051DB#32] : List Word32).map decode =
      [.ok (.lmode 2), .ok (.lmode 0), .ok (.mtzero 0), .ok (.mopak 0 0 0 8 16), .ok (.mopak 0 1 0 8 16),
      .ok (.mopak 0 0 1 2 12), .ok (.mtmv 16 0 19), .ok (.mtmv 17 1 19), .ok (.lmode 1), .ok (.mtbcast 7 13 6),
      .ok (.mtwait 29 0), .ok (.mtqwr 0 16), .ok (.mtqrd 9 30), .ok (.mtsend 0 0 1), .ok (.mtrecv 0 1 3),
      .ok (.mtsend 0 1 1), .ok (.mtrecv 0 0 3)] := by rfl

/-- The major opcodes of the standard base, by their fields (R29, R58). -/
theorem test_decode_majors :
    ([3#5 ++ 0#2 ++ 0#5 ++ 0#5 ++ 0#3 ++ 0#5 ++ 0x5B#7, 0#1 ++ 3#6 ++ 0#5 ++ 0#5 ++ 0#3 ++ 0#5 ++ 0x7B#7,
      1#1 ++ 0#1 ++ 0#10 ++ 0#5 ++ 5#3 ++ 9#5 ++ 0x7B#7, 0#1 ++ 2#6 ++ 2#5 ++ 1#5 ++ 0#3 ++ 3#4 ++ 1#1 ++ 0x63#7,
      0#1 ++ 5#10 ++ 1#1 ++ 3#8 ++ 1#5 ++ 0x6F#7, 4#12 ++ 1#5 ++ 0#3 ++ 0#5 ++ 0x67#7, 0x12345#20 ++ 5#5 ++ 0x37#7,
      0x12345#20 ++ 5#5 ++ 0x17#7, 0#5 ++ 1#1 ++ 0#1 ++ 2#5 ++ 1#5 ++ 2#3 ++ 3#5 ++ 0x2F#7,
      0#4 ++ 3#4 ++ 2#4 ++ 0#5 ++ 0#3 ++ 0#5 ++ 0x0F#7, 7#12 ++ 1#5 ++ 0#3 ++ 5#5 ++ 0x1B#7,
      0#7 ++ 2#5 ++ 1#5 ++ 0#3 ++ 3#5 ++ 0x3B#7, 8#12 ++ 1#5 ++ 2#3 ++ 5#5 ++ 0x07#7,
      0#7 ++ 2#5 ++ 1#5 ++ 2#3 ++ 8#5 ++ 0x27#7, 4#5 ++ 0#2 ++ 2#5 ++ 1#5 ++ 7#3 ++ 3#5 ++ 0x43#7,
      4#5 ++ 0#2 ++ 2#5 ++ 1#5 ++ 7#3 ++ 3#5 ++ 0x4B#7, 0#7 ++ 2#5 ++ 1#5 ++ 7#3 ++ 3#5 ++ 0x53#7] : List Word32).map decode =
      [.ok (.mtzero 0), .ok .cfinish, .ok (.kident 9 0), .ok (.beq 1 2 0x423), .ok (.jal 1 0x1C05), .ok (.jalr 0 1 4),
      .ok (.lui 5 0x12345), .ok (.auipc 5 0x12345), .ok (.amoaddW 3 1 2 1 0), .ok (.fence 0 3 2 0 0), .ok (.addiw 5 1 7),
      .ok (.addw 3 1 2), .ok (.flw 5 1 8), .ok (.fsw 1 2 8), .ok (.fmaddS 3 1 2 4 7), .ok (.fnmsubS 3 1 2 4 7),
      .ok (.faddS 3 1 2 7)] := by rfl

/-- Words that no entry accepts (R40): all zeros, all ones, a 16-bit word, and the hint that must be understood of the
program in chapter 17. -/
theorem test_decode_refuses :
    [0x00000000#32, 0xFFFFFFFF#32, 0x00000001#32, 0x3E07A52B#32].map (fun w => (decode w).toOption) =
      [none, none, none, none] := by rfl


/-! ### States that meet the hypotheses of the statements -/

/-- A core of user mode, running, with the given delegations. -/
def user (medeleg mideleg : Word) : State := State.reset.mapCore fun c =>
  { c with run := .running, priv := .user, csr := { c.csr with medeleg := medeleg, mideleg := mideleg } }

/-- A core of supervisor mode, running. -/
def supervisor : State := State.reset.mapCore fun c => { c with run := .running, priv := .supervisor }

/-- x1 to x3 hold three values. -/
def withX (a b c : Word) (s : State) : State := ((s.setX 1 a).setX 2 b).setX 3 c

/-- Four lanes granted, 32 registers, a width code and a vector length. -/
def vector (sew : BitVec 3) (vl : BitVec 17) : State := State.reset.mapVec fun v =>
  { v with kvl := vl, cfg := { v.cfg with g := 4, nreg := 3, sew := sew } }

/-- The same core in another lane mode, its matrix state on. -/
def inMode (m : LaneMode) (s : State) : State := s.mapMat fun x => { x with mode := m, ts := .initial }

/-- A plain record at 0x10000 in region 0 and a continuation of it. -/
def boundTo (striped : Bool) (phase : RunPhase) : Continuation :=
  { record := 0x10000, region := 0, striped := striped, phase := phase, firstDispatch := 0, entered := 0, saves := 0,
    satp := 0, charge := 1200, named := 0, flags := if striped then 1 else 0, code := 0, frame := 0, next := 0, total := 0 }

def bound (striped : Bool) : State := State.reset.mapCore fun c =>
  { c with run := .running, priv := .user, cont := some (boundTo striped .running) }

/-- The state that an operation which succeeds leaves. -/
def left (r : EStateM.Result Stop State α) : State := match r with
  | .ok _ s => s
  | .error _ s => s

/-- What a walk finds, where it finds a leaf. -/
theorem leafFound {r : Except XFault (TlbEntry × List WalkEntry)} {P : TlbEntry → Prop} [DecidablePred P]
    (h : (match r with | .ok (e, _) => decide (P e) | .error _ => true) = true) : ∀ e w, r = .ok (e, w) → P e := by
  rintro e w rfl
  exact of_decide_eq_true h

/-- A core that has bumped its phase in this station tick. -/
def bumped : State := State.reset.mapCore fun c => { c with lastBump := some 0 }

theorem witness_ReleaseNotFree : ¬ReleaseFree 1 bumped := fun h => absurd (h rfl 0 rfl) (by decide)

/-! ### Steps, decoding, traps -/

theorem witness_StepKeepsMemoryCanonical : ∃ s s', s.Inv ∧ s.CoresCanonical ∧ step s = .next s' :=
  ⟨{ State.reset with inputs := [.event .telemetrySample] }, _, rfl, by
    intro c hc
    obtain rfl : c = Core.reset 0 := by
      cases hc with
      | head => rfl
      | tail _ h => cases h
    refine ⟨⟨fun l => ?_, rfl, rfl⟩, rfl⟩
    simp only [VecState.slice, Core.reset, VecState.reset, Vector.getElem?_replicate]
    split <;> rfl, rfl⟩

theorem witness_DecodeEncode :
    (Instr.vaddVv 3 1 2 0).wellFormed = true ∧ (Instr.vaddVv 3 1 2 0).isEvent = false := by decide

/-- `addi x1, x0, 5` at pc (R59). -/
theorem witness_StepRunsDecoded : let s := State.reset.withFetchWord 32 0x00500093
    s.inputs = [] ∧ s.interruption = none ∧ (∃ s1, fetchWord s.core.pc s = .ok 0x00500093 s1) ∧
      decode 0x00500093 = .ok (.addi 1 0 5) := ⟨rfl, by decide +kernel, ⟨_, rfl⟩, rfl⟩

/-- A word that no entry accepts, at pc. -/
theorem witness_StepRunsNoInstruction : let s := State.reset.withFetchWord 32 0xFFFFFFFF
    s.inputs = [] ∧ s.interruption = none ∧ (∃ s1, fetchWord s.core.pc s = .ok 0xFFFFFFFF s1) ∧ ∀ i, decode 0xFFFFFFFF ≠ .ok i :=
  ⟨rfl, by decide +kernel, ⟨_, rfl⟩, fun i h => by
    have : (decode 0xFFFFFFFF).toOption = none := rfl
    rw [h] at this
    cases this⟩

theorem witness_StepTakesInput : (∃ e : Instr, e.isEvent = true ∧ (∀ w, e ≠ .nonInstructionWord w) ∧
      State.reset.outOfOrder e = false ∧ (State.reset.mapDie 0 fun d => { d with lastLog := some (0, 5) }).outOfOrder e = true) ∧
    (Instr.add 1 2 3).isEvent = false :=
  ⟨⟨.junctionPortDown 3, rfl, nofun, by decide +kernel, by decide +kernel⟩, rfl⟩

/-- The turn of a core that idles, and of one that has an instruction to fetch. -/
theorem witness_StepTakesTurn : (∃ s', (State.reset.setFocus 5).interruption = some s') ∧
    (let v := ({ State.reset.withFetchWord 32 0x00500093 with inputs := [] } : State).setFocus 0;
      v.interruption = none ∧ (∃ s1, fetchWord v.core.pc v = .ok 0x00500093 s1) ∧ decode 0x00500093 = .ok (.addi 1 0 5)) :=
  ⟨⟨_, rfl⟩, by decide +kernel, ⟨_, rfl⟩, rfl⟩

/-- A turn brings its core into focus (R389). -/
theorem test_turn_changes_focus : (match step { State.reset with inputs := [.turn 5] } with
    | .next s => decide (s.core.id = 5) && s.inputs.isEmpty
    | _ => false) = true := by decide +kernel

theorem witness_TrapEntry_delegated : let s := user 0x100 0
    s.landAll.redirects 8 = false ∧ s.core.priv ≠ .machine ∧ bit s.core.csr.medeleg 8 = true := by decide +kernel

theorem witness_TrapEntry_nested : let s := supervisor.mapCsr fun c => { c with medeleg := 0x200, trapDepth := 3 }
    s.landAll.redirects 9 = false ∧ bit s.core.csr.medeleg 9 = true ∧ s.core.csr.trapDepth ≠ s.core.csr.trapLimit ∧
      s.core.csr.trapDepth ≠ 7 := by decide +kernel

theorem witness_TrapEntry_machine : let s := supervisor.mapCsr fun c => { c with medeleg := 0x200, trapDepth := 4 }
    (s.landAll.redirects 9 = false ∧ s.core.priv = .supervisor ∧ s.core.csr.trapDepth = s.core.csr.trapLimit ∧
      s.core.priv ≠ .machine ∧ bit s.core.csr.medeleg 9 = true) ∧
    supervisor.landAll.redirects 9 = false ∧ bit supervisor.core.csr.medeleg 9 = false := by
  decide +kernel

/-- Cause 52 at the nesting limit. -/
theorem witness_TrapEntry_asynchronous : let s := supervisor.mapCsr fun c => { c with medeleg := setBit 0 52 true, trapDepth := 4 }
    s.landAll.redirects 52 = false ∧ s.core.priv ≠ .machine ∧ bit s.core.csr.medeleg 52 = true ∧
      s.core.csr.trapDepth = s.core.csr.trapLimit := by decide +kernel

/-- A core of user mode whose handler takes cause 26, its block at an address. -/
def redirecting (block : Word) : State := (user 0x4000000 0).mapCore fun c =>
  { c with redirect := { c.redirect with mask := 0x4000000, block := block, handler := 0x40 } }

theorem witness_TrapEntry_redirected : let s := redirecting 0x400
    s.Inv ∧ s.mem.discards = [] ∧ s.core.id < coreCount ∧ s.core.redirect.block.toNat % 32 = 0 ∧ s.core.priv = .user ∧
      bit s.core.redirect.mask 26 = true ∧ s.core.redirect.active = false ∧
      ∃ u, translate s.landAll.dataSpace .store .none 0x408 s.landAll = .ok ⟨0x408, none⟩ u ∧ u.Clear .store ⟨0x408, none⟩ 0x408 true :=
  ⟨rfl, rfl, by decide, rfl, rfl, rfl, rfl, _, rfl, rfl, rfl, .inr rfl⟩

/-- Step by step: the pc, the cause and the value lie in the block, and HANDLER goes on in user mode (R352). -/
theorem test_redirect : let t := ((redirecting 0x400).mapCore fun c => { c with pc := 0x88 }).takeTrap 26 7
    t.readPA 0x408 8 = 0x88 ∧ t.readPA 0x410 8 = 26 ∧ t.readPA 0x418 8 = 7 ∧ t.core.pc = 0x40 ∧ t.core.priv = .user ∧
      t.core.redirect.active = true := by decide +kernel

/-- A block where no store succeeds: the supervisor takes the exception. -/
theorem witness_TrapEntry_blockFaults : let s := redirecting 0x8000000000000
    (∃ e u, storeRedirect 26 0 s.landAll = .error e u) ∧ s.core.priv ≠ .machine ∧ bit s.core.csr.medeleg 26 = true ∧
      (s.takeTrap 26 0).core.priv = .supervisor :=
  ⟨⟨_, _, rfl⟩, by decide, rfl, rfl⟩

theorem witness_InterruptEntry_machine : let s := (user 0 0).mapCsr fun c => { c with mie := 0x80, mip := 0x80 }
    s.enabledInterrupt = some 7 ∧ bit s.core.csr.mideleg 7 = false := by decide +kernel

theorem witness_InterruptEntry :
    let s := (user 0 0x10000).mapCsr fun c => { c with mie := 0x10000, mip := 0x10000 }
    s.enabledInterrupt = some 16 ∧ bit s.core.csr.mideleg 16 = true ∧ s.core.priv ≠ .machine := by decide +kernel

theorem witness_TrapReturns : supervisor.core.priv ≠ .user ∧ bit supervisor.core.csr.mstatus 22 = false ∧
    supervisor.mustStop supervisor.core.id = false ∧
    (let s := supervisor.mapCsr (fun c => { c with mstatus := setBit c.mstatus 8 true, trapDepth := 2 });
      bit s.core.csr.mstatus 8 = true ∧ s.core.csr.trapDepth ≠ 0) ∧
    State.reset.core.priv = .machine ∧ (user 0 0).core.priv = .user := by decide +kernel

/-- A supervisor that returns to the continuation its siding holds. -/
def returning : State := (bound false).mapCore fun c =>
  { c with priv := .supervisor, siding := { c.siding with state := .held, record := 0x10000, holder := some (boundTo false .running) } }

theorem witness_TrapReturns_held : bit returning.core.csr.mstatus 8 = false ∧ returning.mustStop returning.core.id = false ∧
    bit returning.core.csr.mstatus 22 = false ∧ returning.core.siding.state = .held ∧
    (∃ k h, returning.core.cont = some k ∧ returning.core.siding.holder = some h ∧ returning.core.siding.record = k.record ∧
      h.region = k.region) ∧ (ran .sret returning).core.siding.state = .shadow :=
  ⟨by decide +kernel, by decide +kernel, by decide +kernel, rfl, ⟨_, _, rfl, rfl, rfl, rfl⟩, by decide +kernel⟩

/-! ### The control thread -/

theorem witness_JumpsAndBranches :
    ((0 : Word) + (4#20 ++ 0#1).signExtend 64).toNat % 4 = 0 ∧ ((0 : Word) + (1#20 ++ 0#1).signExtend 64).toNat % 4 ≠ 0 ∧
      (let s := withX 1 2 0 State.reset;
        s.x 1 ≠ s.x 2 ∧ (s.x 1).toInt < (s.x 2).toInt ∧ (s.x 1).toNat < (s.x 2).toNat ∧ ¬(s.x 2).toInt ≤ (s.x 1).toInt) := by
  decide +kernel

theorem witness_TranslationEffects : ∃ s1, State.reset.Inv ∧
    translate State.reset.dataSpace .load .none 8 State.reset = .ok ⟨8, none⟩ s1 := ⟨_, rfl, rfl⟩

/-- A root table at 0x10000 maps through 0x20000 to a leaf at 0x20000 + 8, for addresses from 0x10000 to 0x1FFFF, its page
discarded where `z` is set (R183 to R186, R189). -/
def mapped (z : Bool) : State :=
  let s := supervisor.mapCsr fun c => { c with satp := setField 0x10 60 4 14 }
  ((s.writePA 0x10000 8 0x20001).writePA 0x20000 8 0x30001).writePA 0x30008 8 (0x500C7 + if z then 0x1000 else 0)

theorem witness_TranslationEffects_mapped : ∃ e s1, (mapped false).Inv ∧
    translate (mapped false).dataSpace .load .none 0x10000 (mapped false) = .ok ⟨0x50000, some e⟩ s1 :=
  ⟨_, _, rfl, rfl⟩

/-- A walk that sets A takes another core's reservation on the leaf's line, and leaves the core's own (R62; log entry 94). -/
theorem test_walk_reservations : let held (c : Core) : Core := { c with reservation := some ⟨0x30048, 1⟩ }
    let s : State := { (mapped false).mapCore held with others := [held (Core.reset 5)] }
    let s := s.writePA 0x30008 8 0x50087
    let t := left (translate s.dataSpace .load .none 0x10000 s)
    (t.coreOf 5).reservation = none ∧ t.core.reservation = some ⟨0x30048, 1⟩ ∧ t.readPA 0x30008 8 = 0x500C7 := by decide +kernel

theorem witness_Loads : ∃ s1, translate State.reset.dataSpace .load .none (State.reset.x 0 + (8#12).signExtend 64) State.reset =
      .ok ⟨8, none⟩ s1 ∧ (8#12).toNat % 8 = 0 ∧ s1.core.dataLine 8 = none ∧ s1.Clear .load ⟨8, none⟩ 8 false :=
  ⟨State.reset, rfl, rfl, rfl, rfl, rfl, .inr rfl⟩

theorem witness_Loads_cached : ∃ (s s1 : State) (l : CacheLine), translate s.dataSpace .load .none 8 s = .ok ⟨8, none⟩ s1 ∧
    s1.core.dataLine 8 = some l ∧ l.serves 8 = true ∧ { l with holes := [8 / 32] }.serves 8 = false :=
  ⟨State.reset.mapCore fun c => { c with dcache := [⟨0, [(8, 1)], []⟩] }, _, _, rfl, rfl, by decide +kernel, by decide +kernel⟩

theorem witness_Loads_discarded : ∃ x s1, translate (mapped true).dataSpace .load .none 0x10000 (mapped true) = .ok x s1 ∧
    x.discarded = true := ⟨_, _, rfl, rfl⟩

theorem witness_Stores : ∃ s1, State.reset.Inv ∧
    translate State.reset.dataSpace .store .none 8 State.reset = .ok ⟨8, none⟩ s1 ∧ s1.Clear .store ⟨8, none⟩ 8 true :=
  ⟨State.reset, rfl, rfl, rfl, rfl, .inr rfl⟩

theorem witness_misaligned : (3 : Word).toNat % 2 ≠ 0 ∧ (4 : Word).toNat % 8 ≠ 0 := by decide

theorem witness_ScalarAtomics : ReleaseFree 1 State.reset ∧ ∃ s1,
    translate State.reset.dataSpace .store .none 8 State.reset = .ok ⟨8, none⟩ s1 ∧
    checkHostAtomic .other 8 ⟨8, none⟩ 8 s1 = .ok () s1 ∧ (s1.mapCore (Core.dropData 8)).Clear .store ⟨8, none⟩ 8 true :=
  ⟨(fun _ _ h => nomatch h), _, rfl, rfl, rfl, rfl, .inr rfl⟩

theorem witness_LoadReserved : ∃ s1, translate State.reset.dataSpace .load .none 8 State.reset = .ok ⟨8, none⟩ s1 ∧
    (Xlated.mk 8 none).discarded = false ∧ checkHostAtomic .reserve 8 ⟨8, none⟩ 8 s1 = .ok () s1 ∧
    (s1.mapCore (Core.dropData 8)).Clear .load ⟨8, none⟩ 8 false :=
  ⟨_, rfl, rfl, rfl, rfl, rfl, .inr rfl⟩

theorem witness_StoreConditional : ∃ s s1 : State, s.core.reservation = some ⟨8, 1⟩ ∧ s.core.clock < 1 + 4096 ∧
    translate s.dataSpace .store .none 8 s = .ok ⟨8, none⟩ s1 ∧ checkHostAtomic .other 8 ⟨8, none⟩ 8 s1 = .ok () s1 ∧
    (s1.mapCore (Core.dropData 8)).Clear .store ⟨8, none⟩ 8 true :=
  ⟨State.reset.mapCore fun c => { c with reservation := some ⟨8, 1⟩, clock := 4096 }, _, rfl, by decide, rfl, rfl, rfl, rfl,
    .inr rfl⟩

theorem witness_StoreConditional_old : ∃ s : State, s.core.reservation = some ⟨8, 1⟩ ∧ 1 + 4096 ≤ s.core.clock ∧
    ((s.mapCore (Core.dropData 8)).touch 8 .normal false).NoRace 8 := ⟨State.reset.mapCore fun c => { c with reservation := some ⟨8, 1⟩, clock := 4097 }, rfl, by decide, .inr rfl⟩

theorem witness_Fences : (∀ t, State.reset.core.lastBump = some t → t + 40 ≤ State.reset.tick) ∧ (1 : BitVec 4) &&& 5 ≠ 0 ∧
    (2 : BitVec 4) &&& 5 = 0 ∧ (2 : BitVec 4) &&& 10 ≠ 0 ∧ (1 : BitVec 4) ≠ 0 ∧ (1 : BitVec 4) ≠ 8 := ⟨nofun, by decide⟩

/-- What `qdrain` waits for: a copy that no engine has accepted, and a load in flight. -/
theorem witness_QueuesDrain : (4 : BitVec 4).getLsbD 2 = true ∧ (8 : BitVec 4).getLsbD 3 = true ∧
    (State.reset.mapCore fun c => { c with qc := [3] }).core.qc ≠ [] ∧
    (State.reset.mapVec fun v => { v with inFlight := [1] }).core.vec.inFlight ≠ [] := by decide +kernel

/-- FLW and FSW with FS on (the data cache empty). -/
theorem witness_FloatAccesses : ∃ s1, State.reset.fpOn = true ∧ (8 : Word).toNat % 4 = 0 ∧
    translate State.reset.dataSpace .load .none 8 State.reset = .ok ⟨8, none⟩ s1 ∧ s1.core.dataLine 8 = none ∧
    s1.Clear .load ⟨8, none⟩ 8 false ∧ s1.Clear .store ⟨8, none⟩ 8 true :=
  ⟨State.reset, by decide +kernel, by decide, rfl, rfl, ⟨rfl, rfl, .inr rfl⟩, rfl, rfl, .inr rfl⟩

theorem witness_FloatOn : State.reset.fpOn = true ∧ (0 : BitVec 3).toNat < 5 ∧
    (State.reset.mapCsr fun c => { c with mstatus := 0 }).fpOn = false := by decide +kernel


/-! ### CSRs and system instructions -/

theorem witness_CsrInstructions : State.reset.readCsr 0x7FF = none ∧ State.reset.readCsr 0x800 = some 0 ∧
    State.reset.readCsr 0xCC1 = some 0x3000 ∧ 0xCC1 / 1024 = 3 ∧ 0x800 / 1024 ≠ 3 ∧ State.reset.NoneExecuting :=
  ⟨by decide +kernel, by decide +kernel, by decide +kernel, by decide, by decide, nofun⟩

/-- kxstatus and kmctl while a slot is being loaded. -/
theorem witness_CsrInstructions_waits : let s := State.reset.mapMat fun m => { m with slots := m.slots.set 2 .fillingLoad }
    SlotState.fillingLoad ∈ s.core.mat.slots.toList ∧ (s.readCsr 0xCC4).isSome = true ∧ (s.readCsr 0x5C8).isSome = true ∧
      0x5C8 / 1024 ≠ 3 := by decide +kernel

theorem witness_ClockWaitAndFence_thread : State.reset.NoneExecuting ∧ State.reset.loadsInFlight = 0 ∧
    (State.reset.mapVec fun v => { v with inFlight := [1] }).NoneExecuting ∧
    (State.reset.mapVec fun v => { v with inFlight := [1] }).loadsInFlight ≠ 0 :=
  ⟨nofun, by decide +kernel, nofun, by decide +kernel⟩

/-- sfence.vma waits while a load is in flight. -/
theorem test_sfence_waits : let s := supervisor.mapVec fun v => { v with inFlight := [1] }
    s.completeExecuting.loadsInFlight ≠ 0 ∧ (ran (.sfenceVma 0 0) s).core.pc = s.core.pc := by decide +kernel

theorem witness_ClockWaitAndFence : 7 < (8 : BitVec 10).toNat ∧ bit supervisor.core.csr.mstatus 21 = false ∧ bit supervisor.core.csr.mstatus 20 = false ∧
    supervisor.core.csr.mip &&& supervisor.core.csr.mie = 0 ∧ bit supervisor.core.csr.mip 16 = false ∧
    bit (supervisor.mapCore (Core.requestStop 1)).core.csr.mip 16 = true := by decide +kernel

/-! ### Work, regions and the signal boxes -/

/-- The region table at 0x200000, the root region of PRIO 0, MAXCORES 10 and DIEMASK 1, preemptible. -/
def regions (s : State) : State :=
  (((({ s with kregbase := 0x200000 }).setRcbField 0 8 2 2).setRcbField 0 20 4 10).setRcbField 0 24 4 1)

/-- The same, with the root's records mapped: a leaf of its table puts 0x10000 at 0x50000 (R330). -/
def placed (s : State) : State :=
  ((((regions s).writePA 0x300000 8 0x10).writePA 0x10000 8 0x20001).writePA 0x20000 8 0x30001).writePA 0x30008 8 0x500C7

theorem witness_QueueAppend : let s := placed State.reset
    s.Inv ∧ s.kregbase.toNat + 0x108000 ≤ 2 ^ 48 ∧ s.mem.discards = [] ∧ s.recordPa 0 0x10000 = 0x50000 ∧
      0x50000 + 64 ≤ s.kregbase.toNat ∧ s.queue 0 = [] :=
  ⟨rfl, by decide +kernel, rfl, by decide +kernel, by decide +kernel, rfl⟩

/-- The leaves that map the records stand apart from the region table and from the records. -/
theorem witness_QueueAppend_leaf : let s := (placed State.reset).append 0 0x10000
    ∀ v ∈ [placed State.reset, s, (s.reach 0 0x10040 true).deviceWrite (s.recordPa 0 0x10040 + 24) 8 0],
      ∀ a ∈ [0x10000#64, 0x10040#64], ∀ e w, v.walk (v.recordSpace 0) a = .ok (e, w) →
        e.pteAddr + 8 ≤ v.kregbase.toNat ∧ e.pteAddr + 8 ≤ 0x50000 := by
  intro s v hv a ha
  simp only [List.mem_cons, List.not_mem_nil, or_false] at hv ha
  obtain rfl | rfl | rfl := hv <;> obtain rfl | rfl := ha <;> exact leafFound (by decide +kernel)

/-- The record at the head is popped, with another behind it and with none. -/
theorem witness_QueuePop : let s := (placed State.reset).append 0 0x10000
    s.queue 0 = 0x10000 :: [] ∧ (s.append 0 0x10040).queue 0 = 0x10000 :: [0x10040] ∧
      (s.queue 0).head? ≠ some 0x10040 := by decide +kernel

/-- A LINK that software writes in a held record leads the pop nowhere (R74). -/
theorem test_pop_ignores_written_link : let s := ((placed State.reset).append 0 0x10000).append 0 0x10040
    let t := (s.writePA 0x50018 8 0x7000).pop 0 0x10000
    s.recLink 0x50000 = 0x10040 ∧ t.queue 0 = [0x10040] ∧ t.qhead 0 = 0x10040 := by decide +kernel

theorem witness_QueueAppend_behind : let s := (placed State.reset).append 0 0x10000
    s.Inv ∧ s.mem.discards = [] ∧ s.queue 0 = [] ++ [0x10000] ∧
      (s.deviceWrite (s.recordPa 0 0x10040 + 24) 8 0).recordPa 0 0x10000 = 0x50000 ∧
      0x50000 + 64 ≤ s.recordPa 0 0x10040 ∧ s.recordPa 0 0x10040 + 64 ≤ s.kregbase.toNat :=
  ⟨rfl, rfl, by decide +kernel, by decide +kernel, by decide +kernel, by decide +kernel⟩

/-- A binding whose charge is paid. -/
def binding : State :=
  (regions State.reset).mapCore fun c => { c with cont := some (boundTo false .binding), power := { c.power with paid := true } }

theorem witness_DispatchRegisters : ∃ s : State, s.core.cont = some (boundTo false .binding) ∧
    s.core.awake = true ∧ s.core.run ≠ .halted ∧ s.corePinned s.core.id = false ∧ s.core.power.paid = true ∧
    s.core.stopsCopy = false ∧ s.core.siding.state ≠ .held ∧ s.bindable (boundTo false .binding) = true ∧ s.core.id < 2304 :=
  ⟨binding, by and_intros <;> decide +kernel⟩

/-- The leaf that maps the frame has A set. -/
theorem witness_DispatchRegisters_read : ∀ a ∈ [0x10000#64, 0x10000#64 + 39], ∀ e w,
    (placed State.reset).walk ((placed State.reset).recordSpace 0) a = .ok (e, w) → bit e.pte 6 = true := by
  intro a h
  simp only [List.mem_cons, List.not_mem_nil, or_false] at h
  obtain rfl | rfl := h <;> exact leafFound (by decide +kernel)

theorem witness_DispatchRegisters_resumed :
    let s := binding.mapCore fun c =>
      { c with siding := { c.siding with state := .held, record := 0x10000, holder := some (boundTo false .stopping) } }
    s.core.cont = some (boundTo false .binding) ∧ s.core.awake = true ∧ s.core.run ≠ .halted ∧ s.core.stopsCopy = false ∧
      s.corePinned s.core.id = false ∧ s.core.power.paid = true ∧ s.core.siding.state = .held ∧
      s.core.siding.record = (boundTo false .binding).record ∧
      s.core.siding.holder.map (·.region) = some (boundTo false .binding).region := by decide +kernel

/-- CSRs that an earlier continuation left are at their Reset columns after a dispatch, and its vector registers are zero (R75, R338). -/
theorem test_dispatch_resets : let t := ran (.dispatch 0) (binding.mapCore fun c => { c with
      krace := { c.krace with count := 3 }, mat := { c.mat with kmstep := 2, predCols := 5 }
      vec := { c.vec with kvl := 3, kvstart := 1, kvdirty := 0, seed := 9, pitch := 7, vrf := c.vec.vrf.set 0 [(0, 1)] } })
    [0x800, 0x803, 0x806, 0x807, 0x808, 0x809, 0xCC0, 0xCC1, 0xCC2, 0xCC3, 0xCCC].map t.readCsr =
        [some 0, some 0x400000000, some 0, some 0x14080, some 1, some 0x10000000, some 0, some 0x3000, some 8192,
          some 0xFFFFFFFF, some 0] ∧
      t.core.vec.slice 0 = [] := by decide +kernel

/-- A record of another region at the address of the record that the siding holds is started, not resumed (R340). -/
theorem test_dispatch_starts_another_region :
    let s := binding.mapCore fun c => { c with siding := { c.siding with state := .held, record := 0x10000,
                                                                         holder := some { boundTo false .stopping with region := 1 } } }
    (match exec (.dispatch 0) s with
      | .next t => decide (t.core.priv = .user) && decide (t.core.siding.state = .held)
      | _ => false) = true := by decide +kernel

theorem witness_Spawn : ∃ s1 s2, (regions State.reset).x 0 = 0 ∧
    translate State.reset.dataSpace .load .none 0 (regions State.reset) = .ok ⟨0, none⟩ s1 ∧ isHbm 0 = true ∧
    translate s1.dataSpace .store .none 0 s1 = .ok ⟨0, none⟩ s2 ∧
    (s2.seen ⟨0, none⟩).recordStatus 0 s2.mayName = 0 ∧ ReleaseFree 1 s2 ∧ s2.recEmpty 0 = false :=
  ⟨_, _, rfl, rfl, rfl, rfl, by decide +kernel, (fun _ _ h => nomatch h), by decide +kernel⟩

/-- A striped record with nothing to claim, spawned, or joined for the last time. -/
theorem witness_Spawn_empty : let s := (regions State.reset).writePA 55 1 1
    s.recEmpty 0 = true ∧ s.recordStatus 0 (fun _ => true) = 0 ∧
      (let u := s.writePA 48 4 1; u.recJoin 0 = 1 ∧ u.accepts (u.recRegion 0) = true ∧ u.recEmpty 0 = true) ∧
      (3 : Word).toNat % 64 ≠ 0 := by decide +kernel

theorem witness_Spawn_refused : (64 : Word).toNat % 64 = 0 ∧ (4 : Word).toNat % 64 ≠ 0 ∧ isHbm (2 ^ 49) = false ∧
    ((regions State.reset).writePA 48 4 1).recordStatus 0 (fun _ => true) = 3 := by decide +kernel

theorem witness_Join : let s := (regions State.reset).writePA 48 4 2
    1 < (s.seen ⟨0, none⟩).recJoin 0 ∧ ((regions State.reset).seen ⟨0, none⟩).recJoin 0 = 0 ∧
      (((regions State.reset).writePA 48 4 1).seen ⟨0, none⟩).recJoin 0 = 1 ∧
      ((regions State.reset).writePA 48 4 1).accepts (((regions State.reset).writePA 48 4 1).recRegion 0) = true ∧
      (((regions State.reset).writePA 48 4 1).writePA 52 2 5).accepts 5 = false := by decide +kernel

theorem witness_StripClaim : let s := (bound true).mapVec fun v => { v with kvl := 4 }
    (∃ k, s.core.cont = some k ∧ k.striped = true) ∧ s.vl ≠ 0 ∧ (bound true).vl = 0 ∧
      (∃ k, (bound false).core.cont = some k ∧ k.striped = false) ∧ State.reset.core.cont = none :=
  ⟨⟨_, rfl, rfl⟩, by decide +kernel, by decide +kernel, ⟨_, rfl, rfl⟩, rfl⟩

theorem witness_FinishAndYield : (inMode .matrix State.reset).core.mat.mode ≠ .vector ∧
    State.reset.core.mat.mode = .vector ∧ State.reset.loadsInFlight = 0 ∧
    (State.reset.core.copies.toList.all fun e => e.state == .free) = true ∧ ReleaseFree 1 State.reset :=
  ⟨by decide, rfl, by decide +kernel, by decide +kernel, fun _ _ h => nomatch h⟩

/-- A copy in progress, a fault that nobody has seen, and a load in flight. -/
theorem witness_Finish_waits : let s := bound false
    let with0 (x : CopyState) : State := s.mapCopy 0 fun e => { e with state := x }
    s.core.mat.mode = .vector ∧ (s.mapVec fun v => { v with inFlight := [1] }).loadsInFlight ≠ 0 ∧
      (∀ n < 64, (s.core.copy n).state ≠ .suspended) ∧ ((with0 .running).core.copy 0).state ∈ [.queued, .running, .stopping] ∧
      (∀ k < 64, ((with0 .faulted).core.copy k).state ∉ [.queued, .running, .stopping]) ∧
      ((with0 .faulted).core.copy 0).state = .faulted ∧ ((with0 .faulted).core.copy 0).obs = false := by decide +kernel

/-- A Suspended copy: `cfinish` has it re-enter qc, and waits (R91, R316). -/
theorem test_finish_resumes_copies : let s := (bound false).mapCopy 5 fun e => { e with state := .suspended }
    s.core.mat.mode = .vector ∧ s.loadsInFlight = 0 ∧ (s.core.copy 5).state = .suspended ∧
    (match exec .cfinish s with
      | .next t => decide ((t.core.copy 5).state = .queued) && decide (t.core.qc = [5]) && decide (t.core.pc = s.core.pc)
      | _ => false) = true := by decide +kernel

/-- A continuation of a plain record whose SUCC is a record at 0x20000 of a given JOIN. -/
def finishing (join : Nat) : State :=
  ((regions (bound false)).writePA 0x10010 8 0x20000).writePA 0x20030 4 join

/-- What `cfinish` meets at the successor: a JOIN above 1, one of 1 that its region accepts, none, and one of 1 that no region
accepts; a striped record that other cores hold, one that is done, and one that has more to claim. -/
theorem witness_Finish_successor : (finishing 2).recSucc 0x10000 = 0x20000 ∧ (finishing 2).recJoin 0x20000 = 2 ∧
    ((finishing 1).recJoin 0x20000 = 1 ∧ (finishing 1).accepts ((finishing 1).recRegion 0x20000) = true ∧
      (finishing 1).recEmpty 0x20000 = false) ∧
    ((finishing 0).recJoin 0x20000 = 0 ∧ (finishing 0).quiescing 0 = false) ∧
    (let s := (finishing 1).writePA 0x20034 2 5; s.recJoin 0x20000 = 1 ∧ s.accepts (s.recRegion 0x20000) = false) ∧
    (finishing 0).recordPa 0 0x10000 = 0x10000 ∧ (bound true).holders 0 0x10000 - 1 = 0 ∧ 0x10000 ∉ (bound true).queue 0 ∧
    { bound true with others := [{ Core.reset 1 with cont := some (boundTo true .running) }] }.holders 0 0x10000 - 1 ≠ 0 ∧
    0x10000 ∈ ((regions (bound true)).append 0 0x10000).queue 0 := by
  decide +kernel

/-- A live child of the root with PRIO 5 of its own and one record queued. -/
def child : State :=
  let s := { (regions State.reset) with live := [0, 1], dev := { State.reset.dev with service := .full } }
  ((s.setRcbField 1 12 4 1).setRcbField 1 5 1 5).append 1 0x10000

/-- Before service begins no core is selected for, whatever the region table holds (R410). -/
theorem test_no_selection_before_service : let s : State := { child with dev := { child.dev with service := .awaitImage } }
    s.topRegions 0 = [1] ∧ s.isIdle 0 = false ∧ child.isIdle 0 = true := by decide +kernel

theorem witness_Regions : ∃ s1, translate State.reset.dataSpace .load .none 0 (regions State.reset) = .ok ⟨0, none⟩ s1 ∧
    s1.regionStatus 4096 (fun off n => s1.readPA off n) < 0 ∧
    0 ≤ (s1.setRcbField 0 4 1 1).regionStatus 0 (fun off n => s1.readPA off n) :=
  ⟨_, rfl, by decide +kernel, by decide +kernel⟩

/-- A template on a page that the host denies. -/
theorem witness_Regions_denied : let s : State := { regions State.reset with dev := { State.reset.dev with denied := [(0, 0)] } }
    (∃ s1, translate s.dataSpace .load .none (BitVec.ofNat 64 (hostPa 0)) s = .ok ⟨hostPa 0, none⟩ s1 ∧
      s1.dev.refuses (s1.hostPage (hostPa 0)) = true) ∧ isHost (hostPa 0) = true ∧
    (BitVec.ofNat 64 (hostPa 0) : Word).toNat % 256 = 0 :=
  ⟨⟨_, rfl, by decide +kernel⟩, by decide +kernel, by decide +kernel⟩

theorem witness_Regions_sync : child.isLive 1 = true ∧ child.region.any (child.within 1) = false ∧ child.mayName 1 = true ∧
    child.subtreeIdle 1 = false ∧ (child.dropQueue 1).subtreeIdle 1 = true ∧
    (let s : State := { child with domains := [⟨1, ⟨1, 255, 1, 0, 5, 6, 7⟩, [], false⟩] };
      ∃ d ∈ s.domains, s.within 1 d.root = true ∧ d.reported = false) := by decide +kernel

/-- A continuation that runs on a core which work of its region waits for, and one that is Stopping already: `cyield` succeeds for
both, and only the first is asked to stop (R8, R86). -/
theorem test_cyield_keeps_a_request : let s (p : RunPhase) : State := { child with
      core := { (bound false).core with cont := some { boundTo false p with region := 1 }, stopCause := 1 }
      dev := { child.dev with service := .fatal } }
    (s .running).core.cont.any (s .running).workWaits = true ∧ (s .stopping).core.cont.any (s .stopping).workWaits = true ∧
      (match exec (.cyield 7) (s .running) with | .next t => t.core.stopCause | _ => 0) = 2 ∧
      (match exec (.cyield 7) (s .stopping) with | .next t => t.core.stopCause | _ => 0) = 1 := by decide +kernel

theorem witness_SignalBox_selection : child.isIdle 0 = true ∧ ((child.chooseRegion 0).map Prod.fst) = some 1 ∧
    (((child.chooseRegion 0).map fun p => (p.2.coreOf 0).holdsSaved 1) = some false) := by decide +kernel

/-- A core that has saved a continuation of region 1. -/
def saved : State := child.mapCore fun c =>
  { c with siding := { c.siding with state := .held, holder := some { boundTo false .stopping with region := 1 } } }

theorem witness_SignalBox_saved : saved.isIdle 0 = true ∧ ((saved.chooseRegion 0).map Prod.fst) = some 1 ∧
    (((saved.chooseRegion 0).map fun p => (p.2.coreOf 0).holdsSaved 1 && (p.2.coreOf 0).siding.holder.isSome) = some true) := by
  decide +kernel

theorem witness_SignalBox_none : (regions State.reset).topRegions 0 = [] ∧ (bound false).isIdle 0 = false ∧
    (regions State.reset).mustStop 0 = false ∧ (regions State.reset).regionsOfQueued 0x10000 = [] := by decide +kernel

def stopping : State := { bound false with domains := [⟨0, ⟨0, 255, 1, 0, 0, 0, 0⟩, [0], false⟩] }

theorem witness_SignalBox_quiesce : (stopping.mustStop 0 = true ∧ (stopping.coreOf 0).priv = .user ∧
      stopping.interruptibleAt 0 = true) ∧
    (let s := stopping.mapCore fun c => { c with begun := .finishing };
      s.mustStop 0 = true ∧ s.interruptibleAt 0 = false ∧ (s.coreOf 0).cont = some (boundTo false .running)) ∧
    (let s := stopping.mapCore fun c => { c with priv := .supervisor };
      s.mustStop 0 = true ∧ (s.coreOf 0).priv ≠ .user ∧ (s.coreOf 0).cont = some (boundTo false .running)) ∧
    (∃ d, { State.reset with domains := stopping.domains }.domains[0]? = some d ∧ d.reported = false ∧
      { State.reset with domains := stopping.domains }.domainStopped d = true) :=
  ⟨by decide +kernel, by decide +kernel, by decide +kernel, _, rfl, rfl, by decide +kernel⟩

/-- A core asked to stop already, one that is halted, and one in Binding. -/
theorem witness_SignalBox_quiesce_others : (let s := stopping.mapCore fun c => { c with priv := .supervisor, stopCause := 3 };
      s.mustStop 0 = true ∧ (s.coreOf 0).priv ≠ .user ∧ (s.coreOf 0).stopCause = 3) ∧
    ((stopping.mapCore fun c => { c with run := .halted }).coreOf 0).run = .halted ∧
    (let s := stopping.mapCore fun c => { c with cont := some (boundTo false .binding) };
      s.mustStop 0 = true ∧ (s.coreOf 0).cont = some (boundTo false .binding) ∧ (s.coreOf 0).power.paid = false) ∧
    (let s := stopping.mapCore fun c => { c with cont := some (boundTo false .binding), power := { c.power with paid := true } };
      (s.coreOf 0).cont = some (boundTo false .binding) ∧ (s.coreOf 0).power.paid = true) := by decide +kernel

/-- The domain of region 1 has stopped; the root's fault continuation is the record at 0x10000, whose frame is at 0x20000, and no
translation serves the root. -/
def reporting : State :=
  { ((((regions State.reset).setRcbField 0 48 8 0x10000).writePA 0x300000 8 (2 ^ 37)).writePA 0x10008 8 0x20000) with
    live := [0, 1], domains := [⟨1, ⟨1, 255, 1, 0, 5, 6, 7⟩, [], false⟩] }

/-- What a table leaves of the record and the frame of `reporting`: nothing is read, and nothing is found. -/
theorem reporting_untranslated (x : Word) : reporting.walked (reporting.recordSpace 0) x = [] ∧
    reporting.walk (reporting.recordSpace 0) x = .error .access := by
  have h : isHbm (field (reporting.recordSpace 0).satp 0 44 * 4096) = false := by decide +kernel
  constructor <;> simp [State.walked, State.walkReads, State.walk, State.walkFrom, h]

theorem witness_FaultReport : ∃ d, reporting.domains[0]? = some d ∧ d.reported = false ∧ reporting.domainStopped d = true ∧
    reporting.loggedAbove (reporting.reportDie d) (reporting.reportUnit 0) = false ∧
    reporting.faultCont maxLevel d.root = some (0, 0x10000) ∧
    reporting.Inv ∧ reporting.mem.discards = [] ∧ reporting.recFrame 0x10000 = 0x20000 ∧
    reporting.recordStatus 0x10000 (fun _ => true) = 0 ∧ reporting.pagePasses 0 0x10000 = false ∧
    (reporting.setRcbField 0 48 8 0).faultCont maxLevel d.root = none ∧
    stopping.domainStopped ⟨0, ⟨0, 255, 1, 0, 0, 0, 0⟩, [0], false⟩ = false ∧
    (let s := reporting.mapDie 0 fun k => { k with lastLog := some (0, 2) }; s.loggedAbove 0 1 = true) := by
  refine ⟨_, rfl, ?_⟩
  and_intros <;> first | decide +kernel | rfl

/-- The same, with the record at 0x40000 and its frame at 0x60000 on pages that a table of the root maps to themselves, with A and D
set. -/
def reportingMapped : State :=
  { ((((((placed State.reset).setRcbField 0 48 8 0x40000).writePA 0x30020 8 0x400C7).writePA 0x30030 8 0x600C7).writePA
      0x40008 8 0x60000)) with
    live := [0, 1], domains := [⟨1, ⟨1, 255, 1, 0, 5, 6, 7⟩, [], false⟩] }

theorem witness_FaultReport_mapped : reportingMapped.faultCont maxLevel 1 = some (0, 0x40000) ∧
    reportingMapped.recFrame 0x40000 = 0x60000 ∧ reportingMapped.pagePasses 0 0x40000 = true ∧
    reportingMapped.recordStatus 0x40000 (fun _ => true) = 0 ∧ reportingMapped.recEmpty 0x40000 = false ∧
    reportingMapped.pagePasses 0 0x40020 = false := by decide +kernel

/-- The walks of the record and of the frame of `reportingMapped` read below the frame, and end in leaves with A and D set. -/
theorem witness_FaultReport_settled :
    (reportingMapped.walked (reportingMapped.recordSpace 0) 0x40000).all (fun q => decide (q.2.addr + 8 ≤ 0x60000)) = true ∧
    (reportingMapped.walked (reportingMapped.recordSpace 0) 0x60000).all (fun q => decide (q.2.addr + 8 ≤ 0x60000)) = true ∧
    ((reportingMapped.walk (reportingMapped.recordSpace 0) 0x40000).toOption.any fun p =>
      p.1.base == 0x40000 && p.1.level == 2 && bit p.1.pte 6 && bit p.1.pte 7) = true ∧
    ((reportingMapped.walk (reportingMapped.recordSpace 0) 0x60000).toOption.any fun p =>
      p.1.base == 0x60000 && p.1.level == 2 && bit p.1.pte 6 && bit p.1.pte 7) = true ∧
    ∀ k < 40, SamePage (BitVec.ofNat 64 (0x60000 + k)) 0x60000 :=
  ⟨by decide +kernel, by decide +kernel, by decide +kernel, by decide +kernel, by unfold SamePage; decide +kernel⟩

/-- A running core of the root region, and no core that is idle. -/
def busy : State := { child with
  core := (bound false).core, dev := { child.dev with service := .fatal } }

theorem witness_SignalBox_preempt : busy.regionsOfQueued 0x10000 = [1] ∧ busy.preemptions = [] ∧
    busy.idleCoreFor 1 = false ∧ busy.victimFor 1 = some 0 := by decide +kernel

/-- Two regions have a record of one address queued: a request of the one does not hold back that of the other (R83). -/
def twoQueued : State := { busy.append 0 0x10000 with preemptions := [⟨0, 0x10000, 5⟩] }

theorem test_preempt_by_region : twoQueued.regionsOfQueued 0x10000 = [0, 1] ∧ twoQueued.asksFor 0x10000 0 0 = false ∧
    twoQueued.asksFor 0x10000 0 1 = true := by decide +kernel


/-! ### Vector instructions -/

theorem canonical_reset : (Core.reset 0).Canonical := by
  refine ⟨fun l => ?_, rfl, rfl⟩
  simp only [VecState.slice, Core.reset, VecState.reset, Vector.getElem?_replicate]
  split <;> rfl

theorem good : (vector 2 4).core.vec.geometry.Good :=
  ⟨.inr (.inr rfl), by decide +kernel, by decide +kernel, by decide +kernel, by decide +kernel⟩

/-- An access that succeeds leaves a state. -/
theorem reaches {r : EStateM.Result Stop State Unit} (h : (match r with | .ok _ _ => true | _ => false) = true) :
    ∃ s', r = .ok () s' := by
  cases r with
  | ok _ s' => exact ⟨s', rfl⟩
  | error _ _ => cases h

theorem witness_PassEffects : let s := vector 2 4
    s.core.vec.geometry.Good ∧ s.core.Canonical ∧ 32 ∈ [8, 16, 32, 64] ∧ 2 ∈ [1, 2] ∧ 30 + 2 ≤ s.core.vec.geometry.n ∧
      s.vl ≤ s.core.vec.geometry.cap 32 2 ∧ s.vl ≤ s.core.vec.geometry.maskCap :=
  ⟨good, canonical_reset, by decide, by decide, by decide +kernel, by decide +kernel, by decide +kernel⟩

theorem witness_PassEffects_fits : let s := vector 2 4
    (Dest.elems 32 30 2).Fits s.core.vec.geometry ∧ (Dest.mask 3).Fits s.core.vec.geometry ∧
      s.vl ≤ (Dest.elems 32 30 2).cap s.core.vec.geometry ∧ s.vl ≤ (Dest.mask 3).cap s.core.vec.geometry ∧ s.vl ≠ 0 ∧
      s.vstart < s.vl :=
  ⟨⟨by decide, by decide, by decide +kernel⟩, by unfold Dest.Fits; decide +kernel, by decide +kernel, by decide +kernel,
    by decide +kernel, by decide +kernel⟩

/-- vmacc with an empty destination that faults, and a clip at SEW 32. -/
theorem witness_VectorIntegerFamily_sources : let s := (vector 2 4).mapVec fun v => { v with full := ~~~8, kvfe := 8 }
    VectorReady (s.mapVec fun v => { v with full := -1 }) ([5, 7] ++ maskReads 1) [3] ∧ ([5, 7] ++ maskReads 1).all s.isFull = true ∧
      s.isFull 3 = false ∧ s.core.vec.kvfe.getLsbD 3 = true ∧ (vector 2 4).sew ≠ 64 ∧
      VectorReady (vector 2 4) ([6, 7, 9] ++ maskReads 1) [3] := by
  unfold VectorReady; decide +kernel

/-- A whole pass writes an element below kvstart, and marks its register and its flags (R107, R139, R338). -/
theorem test_pass_marks : let s := (vector 2 4).mapVec fun v => { v with kvdirty := 0, kvstart := 2 }
    let t := s.passAll s.core.vec.geometry (.elems 32 5 1) 1 fun _ => some (7, 1)
    t.core.vec.kvdirty = 0x20 ∧ t.core.vec.kvfflags = 1 ∧ t.core.vec.elem s.core.vec.geometry 32 5 0 = 7 ∧ t.vstart = 0 := by
  decide +kernel

/-- Every clause of the integer, mask and permutation statements, at SEW 32: v3 as the destination, v5 and v7 as sources,
without and with a mask. -/
theorem witness_VectorReady : (∀ vm : BitVec 1, VectorReady (vector 2 4) ([5, 7, 9, 3] ++ maskReads vm) [3, 4]) ∧
    (∀ vm : BitVec 1, maskOk vm 3 = true) ∧ maskOk 0 0 = false ∧ VectorReady (vector 2 4) [5, 0] [3] ∧
    VectorReady (vector 2 4) [] [3] := by
  have h (vm : BitVec 1) : vm = 0 ∨ vm = 1 := by revert vm; decide
  refine ⟨fun vm => ?_, fun vm => ?_, by decide +kernel, ⟨by decide +kernel, rfl, rfl, rfl, by decide +kernel, rfl⟩,
    ⟨by decide +kernel, rfl, rfl, rfl, by decide +kernel, rfl⟩⟩
  · obtain rfl | rfl := h vm <;> exact ⟨by decide +kernel, rfl, rfl, rfl, by decide +kernel, rfl⟩
  · obtain rfl | rfl := h vm <;> decide +kernel

theorem witness_WidenAndClip : (vector 2 4).sew ≠ 64 ∧ (vector 3 4).sew = 64 ∧ (2 : BitVec 5).toNat % 2 = 0 ∧
    (4 : BitVec 5).toNat / 2 ≠ (2 : BitVec 5).toNat / 2 ∧
    VectorReady (vector 2 4) ([4, 5, 7] ++ maskReads 0) [2, 3] ∧ VectorReady (vector 2 4) ([4, 5, 7] ++ maskReads 0) [3] :=
  ⟨by decide +kernel, by decide +kernel, by decide, by decide,
    ⟨by decide +kernel, rfl, rfl, rfl, by decide +kernel, rfl⟩, ⟨by decide +kernel, rfl, rfl, rfl, by decide +kernel, rfl⟩⟩

theorem witness_VectorPermutations_moves : (vector 2 4).vstart = 0 ∧ (vector 2 4).vl ≠ 0 ∧ (vector 2 0).vl = 0 ∧
    2 ^ ((5 : BitVec 4).toNat % 8) ≤ (vector 2 4).sew := by decide +kernel

/-- A die whose B_up covers a ramp, and a lane change that is pending. -/
theorem witness_VectorConfiguration : let s := State.reset
    0x1A < 2048 ∧ 0x1A % 8 ≤ 3 ∧ 0x1A / 8 % 8 ≤ 4 ∧ 0x1A / 256 % 8 ≤ 4 ∧ (s.core.vec.cfg.npend = 0 ∨ s.core.mat.ts = .off) ∧
      s.core.mat.mode = .vector ∧ s.core.power.quietLoad = 0 ∧ s.core.power.powered < s.enteredQv.offer s.core.id ∧
      s.netCharge s.core.id (laneCharge * (s.enteredQv.offer s.core.id - s.core.power.powered)) ≤
        (s.die (dieOf s.core.id)).bUp := by decide +kernel

/-- A pinned core in its turn, and one that comes after a higher core of the same tick. -/
theorem witness_VectorConfiguration_pinned : let s := (regions (bound false)).setRcbField 0 8 2 1
    s.corePinned 0 = true ∧ s.pinnedTurn 0 = true ∧ s.core.power.powered < s.enteredQv.offer 0 ∧
      s.netCharge 0 (laneCharge * (s.enteredQv.offer 0 - s.core.power.powered)) ≤ (s.die 0).bUp ∧
      (s.mapDie 0 fun d => { d with lastPinned := some (0, 5) }).pinnedTurn 0 = false := by decide +kernel

theorem witness_VectorConfiguration_mode : (inMode .matrix State.reset).core.mat.mode ≠ .vector ∧
    ((inMode .matrix State.reset).core.vec.cfg.npend = 0 ∨ (inMode .matrix State.reset).core.mat.ts = .off) ∧ 4 ≤ 0x4 % 8 := by
  decide +kernel

theorem witness_VectorChecks : (inMode .threaded State.reset).core.mat.mode ≠ .vector ∧ (State.reset.mapVec fun v => { v with cfg := { v.cfg with nreg := 1 } }).nreg ≤ (31 : BitVec 5).toNat ∧
    (let s := (vector 2 4).mapVec fun v => { v with cfg := { v.cfg with vlx := true } };
      (3 : BitVec 5).toNat < s.nreg ∧ s.core.vec.cfg.vlx = true) ∧
    (let s := (vector 2 4).mapVec fun v => { v with full := 0, kvfe := 32 };
      s.core.vec.cfg.vlx = false ∧ s.core.power.quietLoad = 0 ∧ s.isFull 5 = false ∧ s.core.vec.kvfe.getLsbD 5 = true ∧
        s.core.vec.kvfe.getLsbD 6 = false) ∧
    maskOk 0 0 = false ∧ (5 : BitVec 5).toNat % 2 ≠ 0 := by decide +kernel

/-- A masked add whose second source is empty, with its kvfe bit set and not. -/
theorem witness_VectorChecks_empty : let s (fe : BitVec 32) := (vector 2 4).mapVec fun v => { v with full := ~~~64, kvfe := fe }
    (∀ r ∈ [5, 6, 0] ++ [3], r < (s 0).nreg) ∧
      ([5, 6, 0].find? fun r => !(s 64).isFull r && (s 64).core.vec.kvfe.getLsbD r) = some 6 ∧
      (∀ r ∈ [5, 6, 0], (s 0).isFull r = true ∨ (s 0).core.vec.kvfe.getLsbD r = false) ∧ (s 0).isFull 6 = false := by
  decide +kernel

theorem witness_VectorFloat : (vector 2 4).sew = 32 ∧ (vector 1 4).sew = 16 ∧ (vector 3 4).sew ≠ 16 ∧ (vector 3 4).sew ≠ 32 ∧
    VectorReady (vector 1 4) ([6, 8, 2, 3] ++ maskReads 0) [2, 3] ∧ (vector 1 4).vstart < (vector 1 4).vl ∧
    (vector 1 0).vl ≤ (vector 1 0).vstart ∧
    (let s := (vector 2 4).setVstart 2; s.vstart < s.vl ∧ s.vstart ≠ 0 ∧ VectorReady s ([5, 7] ++ [3] ++ maskReads 1) [3]) :=
  ⟨by decide +kernel, by decide +kernel, by decide +kernel, by decide +kernel,
    ⟨by decide +kernel, rfl, rfl, rfl, by decide +kernel, rfl⟩, by decide +kernel, by decide +kernel,
    by decide +kernel, by decide +kernel, ⟨by decide +kernel, rfl, rfl, rfl, by decide +kernel, rfl⟩⟩

theorem witness_NarrowFormats : (∃ src dst, convertFormats 32 0 = some (src, dst)) ∧ convertFormats 64 0 = none ∧
    (vector 0 4).sew = 8 ∧ VectorReady (vector 0 4) ([5, 7, 1, 3] ++ maskReads 0) [3] ∧
    VectorReady (vector 2 4) [5] [3, 1] ∧ VectorReady (vector 2 4) ([5, 1] ++ maskReads 0) [3] ∧ VectorReady (vector 2 4) [] [1] ∧
    VectorReady (vector 2 4) [] [] :=
  ⟨⟨_, _, rfl⟩, rfl, by decide +kernel, ⟨by decide +kernel, rfl, rfl, rfl, by decide +kernel, rfl⟩,
    ⟨by decide +kernel, rfl, rfl, rfl, by decide +kernel, rfl⟩, ⟨by decide +kernel, rfl, rfl, rfl, by decide +kernel, rfl⟩,
    ⟨by decide +kernel, rfl, rfl, rfl, by decide +kernel, rfl⟩, ⟨by decide +kernel, rfl, rfl, rfl, by decide +kernel, rfl⟩⟩

/-! ### Vector memory, caches and atomics -/

theorem plain : (vector 2 4).Plain :=
  ⟨by decide +kernel, rfl, by decide +kernel, rfl, rfl, rfl, rfl, rfl⟩

def unit (load : Bool) : VectorAccess := ⟨load, 32, 4, none, unitAddr 1 32, fun _ => true, .none, hintClass 0, false⟩

theorem usable (k : Nat) (h : k < 4) : (vector 2 4).Usable ((vector 2 4).x 1 + BitVec.ofNat 64 (k * (32 / 8))) (32 / 8) := by
  revert k h
  unfold State.Usable
  decide +kernel

theorem witness_VectorLoads : MemoryReady (vector 2 4) (unit true) 0 ∧ MemoryReady (vector 2 4) (unit false) 1 ∧
    (vector 2 4).vstart < (vector 2 4).vl ∧ (vector 2 0).vl ≤ (vector 2 0).vstart ∧ (vector 2 4).Plain ∧ (vector 2 4).Inv ∧
    (vector 2 4).core.vec.geometry.Good ∧ (vector 2 4).core.Canonical ∧
    (vector 2 4).vl ≤ (vector 2 4).core.vec.geometry.cap 32 ((unit true).group (vector 2 4).sew).length ∧
    ∀ k < 4, (vector 2 4).Usable ((vector 2 4).x 1 + BitVec.ofNat 64 (k * (32 / 8))) (32 / 8) :=
  ⟨⟨by decide +kernel, rfl, rfl, rfl, by decide +kernel, rfl, fun _ => by decide +kernel⟩,
    ⟨by decide +kernel, rfl, rfl, rfl, by decide +kernel, rfl, fun _ => by decide +kernel⟩,
    by decide +kernel, by decide +kernel, plain, rfl, good, canonical_reset, by decide +kernel, usable⟩

theorem witness_VectorLoads_accesses : (∃ s', (unit true).accesses (vector 2 2) 1 (vector 2 2) = .ok () s') ∧
    (∃ s', (unit false).accesses (vector 2 2) 1 (vector 2 2) = .ok () s') ∧
    ∃ s', { unit true with sorted := true }.accesses (vector 2 2) 1 (vector 2 2) = .ok () s' :=
  ⟨reaches (by decide +kernel), reaches (by decide +kernel), reaches (by decide +kernel)⟩

/-- x1 holds the address four bytes below the end of device memory: the first element lies in it, the second past it. -/
def edge : State := (vector 2 4).setX 1 (BitVec.ofNat 64 (24 * 2 ^ 37 - 4))

theorem witness_VectorLoads_fault : (∀ load, MemoryReady edge (unit load) 1) ∧ edge.Plain ∧ edge.Inv ∧
    edge.core.vec.geometry.Good ∧ edge.core.Canonical ∧ edge.vl ≤ edge.core.vec.geometry.cap 32 ((unit true).group edge.sew).length ∧
    edge.vstart ≤ 1 ∧ 1 < edge.vl ∧ edge.core.vec.active edge.core.vec.geometry 1 1 = true ∧
    ¬edge.Usable (edge.x 1 + BitVec.ofNat 64 (1 * (32 / 8))) (32 / 8) ∧
    (∀ i, edge.vstart ≤ i → i < 1 → edge.Usable (edge.x 1 + BitVec.ofNat 64 (i * (32 / 8))) (32 / 8)) := by
  refine ⟨fun load => ?_, ⟨by decide +kernel, rfl, by decide +kernel, rfl, rfl, rfl, rfl, rfl⟩, rfl, good, canonical_reset,
    by decide +kernel, by decide +kernel, by decide +kernel, by decide +kernel, by unfold State.Usable; decide +kernel,
    fun i _ h => ?_⟩
  · cases load <;> exact ⟨by decide +kernel, rfl, rfl, rfl, by decide +kernel, rfl, fun _ => by decide +kernel⟩
  · obtain rfl : i = 0 := by omega
    unfold State.Usable
    decide +kernel

theorem good_whole : State.reset.core.vec.wholeGeometry.Good :=
  ⟨by decide +kernel, by decide +kernel, by decide +kernel, by decide +kernel, by decide +kernel⟩

theorem witness_WholeRegisters : let s := State.reset.setVstart 1022
    ((5 : BitVec 5).toNat < s.nreg ∧ s.core.vec.cfg.vlx = false ∧ s.core.mat.mode = .vector ∧ s.isFull 5 = true ∧
        s.core.stopAt = none ∧ s.Plain ∧ s.core.vec.wholeGeometry.Good ∧ s.core.Canonical ∧ s.loadsInFlight < 32 ∧ s.Inv) ∧
      ∀ j, s.vstart ≤ j → j < s.lanes * 256 / s.nreg → s.Usable (s.x 1 + BitVec.ofNat 64 (8 * j)) 8 := by
  refine ⟨⟨by decide +kernel, rfl, rfl, by decide +kernel, rfl, ⟨by decide +kernel, rfl, by decide +kernel, rfl, rfl, rfl, rfl, rfl⟩,
    good_whole, canonical_reset, by decide +kernel, rfl⟩, ?_⟩
  have hv : (State.reset.setVstart 1022).vstart = 1022 := by decide +kernel
  have hu : (State.reset.setVstart 1022).lanes * 256 / (State.reset.setVstart 1022).nreg = 1024 := by decide +kernel
  have h : ∀ k < 2, (State.reset.setVstart 1022).Usable ((State.reset.setVstart 1022).x 1 + BitVec.ofNat 64 (8 * (1022 + k))) 8 := by
    unfold State.Usable
    decide +kernel
  intro j lo hi
  obtain ⟨k, rfl⟩ : ∃ k, j = 1022 + k := ⟨j - 1022, by omega⟩
  exact h k (by omega)

/-- The last two units from an address whose second one lies past device memory. -/
theorem witness_WholeRegisters_fault :
    let s := (State.reset.setVstart 1022).setX 1 (BitVec.ofNat 64 (24 * 2 ^ 37 - 8 * 1023))
    s.vstart ≤ 1023 ∧ 1023 < s.lanes * 256 / s.nreg ∧ ¬s.Usable (s.x 1 + BitVec.ofNat 64 (8 * 1023)) 8 ∧
      s.Usable (s.x 1 + BitVec.ofNat 64 (8 * 1022)) 8 := by
  unfold State.Usable
  decide +kernel

theorem witness_LoadLanded : ∃ m, (State.reset.mapVec fun v => { v with inFlight := [32, 64] }).core.vec.inFlight[1]? = some m :=
  ⟨_, rfl⟩


/-! ### Memory management, atomics, barriers -/

theorem witness_CacheOperations : let s := withX 0x1000 128 0 State.reset
    s.Plain ∧ s.vstart = 0 ∧ 0 < (s.x 2).toNat ∧ (s.x 1).toNat + (s.x 2).toNat ≤ 2 ^ 37 ∧ (s.x 2).toNat ≤ 2 ^ 28 ∧
      s.core.stopAt = none ∧ s.core.vec.cfg.vlx = false ∧ s.core.priv ≠ .user ∧ (s.x 2).toNat < 65536 ∧
      (user 0 0).core.priv = .user ∧ 2 ^ 28 < ((withX 0 (2 ^ 28 + 1) 0 State.reset).x 2).toNat :=
  ⟨⟨by decide +kernel, rfl, by decide +kernel, rfl, rfl, rfl, rfl, rfl⟩, by decide +kernel, by decide +kernel, by decide +kernel,
    by decide +kernel, rfl, rfl, by decide, by decide +kernel, rfl, by decide +kernel⟩

/-- The hints meet a page that no table maps. -/
theorem witness_CacheOperations_dropped : let s := withX 0x30000 128 0 (mapped false)
    0 < (s.x 2).toNat ∧ (s.x 1).toNat % 65536 + (s.x 2).toNat ≤ 65536 ∧ ∃ x, s.resolve s.vmuSpace .load (s.x 1) = .error x :=
  ⟨by decide +kernel, by decide +kernel, _, rfl⟩

theorem witness_PageOperations : let s := withX 0x10000 65536 0 (mapped false)
    ∃ pa e trail, s.Inv ∧ s.core.stopAt = none ∧ s.vstart = 0 ∧ (s.x 2).toNat = 65536 ∧ (s.x 1).toNat % 65536 = 0 ∧
      s.resolve s.vmuSpace .store (s.x 1) = .ok (pa, some (e, trail)) ∧ isHbm pa = true ∧ e.level ≠ 1 ∧
      Apart e.pteAddr 8 pa 65536 ∧ bit e.pte 12 = false :=
  ⟨_, _, _, rfl, rfl, by decide +kernel, by decide +kernel, by decide +kernel, rfl, by decide +kernel, by decide +kernel,
    .inl (by decide +kernel), by decide +kernel⟩

/-- A page of a core that does not translate has no leaf. -/
theorem witness_PageOperations_bare : let s := withX 0x10000 65536 0 State.reset
    ∃ pa, s.core.stopAt = none ∧ s.vstart = 0 ∧ s.x 2 ≠ 0 ∧ (s.x 2).toNat ≤ 2 ^ 28 ∧ (s.x 2).toNat % 65536 = 0 ∧
      (s.x 1).toNat % 65536 = 0 ∧ s.resolve s.vmuSpace .store (s.x 1) = .ok (pa, none) :=
  ⟨_, rfl, by decide +kernel, by and_intros <;> first | decide +kernel | rfl⟩

theorem witness_PageRevival : ∃ pa e trail, (mapped true).Inv ∧
    (mapped true).resolve (mapped true).vmuSpace .store 0x10000 = .ok (pa, some (e, trail)) ∧ bit e.pte 12 = true ∧
      ∀ i, i < 2 ^ leafBits e.level → Apart e.pteAddr 8 (e.base + i) 1 := by
  refine ⟨_, _, _, rfl, rfl, by decide +kernel, fun i hi => .inl ?_⟩
  have h : i < 65536 := hi
  have w : window (0x50000 + i) = 0 := by
    unfold window
    omega
  have b : canonical (0x50000 + i) = 0x50000 + i := by
    unfold canonical
    rw [if_neg (by omega)]
  have c : canonical 0x30008 = 0x30008 := by decide +kernel
  show canonical 0x30008 + 8 ≤ canonical (0x50000 + i)
  omega

/-- The frame of a discarded page, by its physical address; and an address that no discard concerns. -/
theorem witness_PageRevival_physical : let s := ((mapped true).mapCore fun c => { c with priv := .machine }).mapMem fun m =>
      { m with discards := [⟨0x50000, 16, 0x30008⟩] }
    s.Inv ∧ s.resolve s.vmuSpace .store 0x50000 = .ok (0x50000, none) ∧ s.core.run ≠ .halted ∧
      (s.mem.discards.find? fun d => pageHolds d.base d.bits (canonical 0x50000)) = some ⟨0x50000, 16, 0x30008⟩ ∧
      (s.readPA 0x30008 8).testBit 12 = true ∧
      (s.mem.discards.find? fun d => pageHolds d.base d.bits (canonical 0x70000)) = none ∧
      (s.mapCore fun c => { c with run := .halted }).core.run = .halted :=
  ⟨rfl, rfl, by decide +kernel, by decide +kernel, by decide +kernel, by decide +kernel, rfl⟩

theorem witness_Ways : let s := withX 3 0 0 (State.reset.mapCore fun c => { c with converted := 3 })
    (s.x 1).toNat = s.core.converted ∧ s.waysPermitted 3 3 = true ∧ s.waysPermitted 3 8 = true ∧ s.waysPermitted 0 3 = true ∧
      s.core.drain = none ∧ (s.mapCore fun c => { c with drain := some 5 }).core.drain ≠ none ∧ (user 0 0).waysPermitted 0 1 = false ∧ (user 0 0).core.converted ≤ 1 ∧ 8 < (9 : Word).toNat ∧
      ((State.reset.mapCore fun c => { c with drain := some 5 }).coreOf (96 * 0 + 0)).drain = some 5 := by decide +kernel

/-- One active element at 0x100, of SEW 32. -/
def single : State := withX 0x100 0 0 (vector 2 1)

theorem single_usable : single.Usable (single.x 1 + BitVec.ofNat 64 (single.core.vec.elem single.core.vec.geometry 32 7 0)) 4 := by
  unfold State.Usable
  decide +kernel

theorem witness_VectorAtomics : single.sew = 32 ∧ (∀ (load : Bool) (vm : BitVec 1), single.VmuReady load [5, 7] vm) ∧
    single.vstart < single.vl ∧
    single.Plain ∧ single.Inv ∧ single.core.vec.geometry.Good ∧ single.core.Canonical ∧
    single.vl ≤ single.core.vec.geometry.cap 32 1 ∧
    (∀ i, single.vstart ≤ i → i < single.vl →
      single.Usable (single.x 1 + BitVec.ofNat 64 (single.core.vec.elem single.core.vec.geometry 32 7 i)) 4) ∧
    (∀ i j, i < single.vl → j < single.vl → i = j) ∧
    single.activeBody 1 = 0 :: [] ∧ (vector 2 0).activeBody 1 = [] ∧ (vector 0 4).sew = 8 ∧ (vector 3 4).sew = 64 := by
  have hv : single.vl = 1 := by decide +kernel
  refine ⟨by decide +kernel, fun load vm => ?_, by decide +kernel, ⟨by decide +kernel, rfl, by decide +kernel, rfl, rfl, rfl, rfl, rfl⟩,
    rfl, good, canonical_reset, by decide +kernel, fun i _ h => ?_, fun i j h k => by omega, by decide +kernel, by decide +kernel,
    by decide +kernel, by decide +kernel⟩
  · have h : vm = 0 ∨ vm = 1 := by revert vm; decide
    obtain rfl | rfl := h <;> exact ⟨by decide +kernel, rfl, rfl, by decide +kernel, rfl, fun _ => by decide +kernel⟩
  · obtain rfl : i = 0 := by omega
    exact single_usable

theorem witness_GatherScatter : (single.activeBody 1).length ≤ 64 ∧ single.isFull (3 : BitVec 2).toNat = true ∧
    ReleaseFree 1 single ∧ single.core.holdsElement 0 0x100 = false ∧
    (single.mapVec fun v => { v with reservations := [⟨0, 0x100, 0⟩] }).core.holdsElement 0 0x100 = true :=
  ⟨by decide +kernel, by decide +kernel, (fun _ _ h => nomatch h), by decide +kernel, by decide +kernel⟩

/-- Barrier 5 of the core's own cluster, with two arrivals to make and one made. -/
def barrier (gen : BitVec 16) : State := State.reset.mapMem fun m => { m with barriers := [⟨0, 0, 5, true, 2, 1, gen⟩] }

theorem witness_Barriers : (5 : Word).toNat < 1024 ∧ (5 : Word).toNat / 64 % 4 = 0 ∧ (5 : Word).toNat / 256 % 4 ≠ 3 ∧
    (0x210 : Word).toNat / 256 % 4 = 2 ∧ ¬(0x210 : Word).toNat % 64 < 16 ∧
    (barrier 7).core.vec.cfg.vlx = false ∧ ((barrier 7).mem.barrier (0, 0, 5)).init = true ∧
    ((barrier 7).mem.barrier (0, 0, 5)).arrived ≠ 0 ∧ (State.reset.mem.barrier (0, 0, 5)).init = false ∧
    (State.reset.mem.barrier (0, 0, 5)).arrived = 0 ∧ ReleaseFree 1 (barrier 7) ∧
    ((barrier 7).mem.barrier (0, 0, 5)).arrived + 1 = ((barrier 7).mem.barrier (0, 0, 5)).count ∧
    ((barrier 7).mem.barrier (0, 0, 5)).gen - 7 = 0 ∧ ((barrier 7).mem.barrier (0, 0, 5)).gen - 6 ≠ 0 ∧
    (((barrier 7).mem.barrier (0, 0, 5)).gen - 6).toNat < 32768 ∧ 32768 ≤ (((barrier 7).mem.barrier (0, 0, 5)).gen - 8).toNat ∧
    ((barrier 7).mapCore fun c => { c with priv := .user }).core.priv = .user ∧ (barrier 7).core.begun ≠ .barrier ∧
    (State.reset.mapCore fun c => { c with begun := .barrier }).core.begun = .barrier :=
  by and_intros <;> first | decide +kernel | exact fun _ _ h => nomatch h

/-- A release that waits, at a barrier that is set. -/
theorem witness_Barriers_waits : let s := bumped.mapMem fun m => { m with barriers := [⟨0, 0, 5, true, 2, 1, 7⟩] }
    s.core.vec.cfg.vlx = false ∧ (s.mem.barrier (0, 0, 5)).init = true ∧ ¬ReleaseFree 1 s :=
  ⟨rfl, by decide +kernel, fun h => absurd (h rfl 0 rfl) (by decide)⟩

/-- An arrival that has begun completes at a barrier retired while its release waited (R299). -/
theorem test_arrival_at_retired : let s := State.reset.mapCore fun c => { c with begun := .barrier, regs := c.regs.set 5 5 }
    (s.mem.barrier (0, 0, 5)).init = false ∧
      (ran (.vfencebar 6 5) s).core.pc = s.core.pc + 4 ∧ ((ran (.vfencebar 6 5) s).mem.barrier (0, 0, 5)).arrived = 1 := by
  decide +kernel

/-! ### Lane modes and the matrix array -/

/-- A matrix state with a predicate of two rows, three columns and one step. -/
def array (f : MatState → MatState) : State :=
  ((vector 2 4).mapMat fun m => { m with mode := .matrix, ts := .initial, predRows := 2, predCols := 3, predDepth := 1 }).mapMat f

def serving (x : ServiceState) : State := { State.reset with dev := { State.reset.dev with service := x } }

theorem witness_LaneModes : let s := State.reset
    (∀ r, s.tileStore ≤ r → r < s.nreg → s.isFull r = true) ∧ s.core.mat.mode ≠ .matrix ∧ s.core.power.quietLoad = 0 ∧
      s.core.mat.phase = .none ∧ s.dev.service ≠ .maquette ∧ (s.core.mat.mode = .threaded → False) ∧
      s.Affordable (modeLoad .matrix (s.poweredIn .matrix) - modeLoad s.core.mat.mode s.core.power.powered) ∧
      2 < (3 : BitVec 5).toNat := by
  refine ⟨fun r _ h => ?_, by decide, by decide, rfl, by decide, (fun h => nomatch h), ⟨rfl, by decide +kernel, by decide +kernel⟩,
    by decide⟩
  have : State.reset.nreg = 32 := by decide +kernel
  have full : ∀ r < 32, State.reset.isFull r = true := by decide +kernel
  exact full r (this ▸ h)

theorem witness_LaneModes_draining : let s := State.reset.mapVec fun v => { v with full := 0 }
    s.tileStore ≤ 31 ∧ 31 < s.nreg ∧ s.isFull 31 = false := by decide +kernel

/-- Maquette service bars the modes of the array; a drain yields to an interrupt that is enabled and waits. -/
theorem witness_LaneModes_barred : (serving .maquette).dev.service = .maquette ∧ (serving .maquette).core.mat.mode ≠ .matrix ∧
    (inMode .matrix (serving .maquette)).core.mat.mode ≠ .vector ∧
    (State.reset.mapMat fun m => { m with phase := .draining .threaded }).enabledInterrupt = none ∧
    (((user 0 0x10000).mapCsr fun c => { c with mie := 0x10000, mip := 0x10000 }).mapMat fun m =>
      { m with phase := .draining .threaded }).enabledInterrupt ≠ none := by decide +kernel

theorem witness_LaneModes_threads : let s := inMode .threaded State.reset
    (s.mapMt fun m => { m with threads := [(0, { Thread.stopped with state := .ready })] }).core.mt.threads.any
      (fun t => t.2.state != .stopped) = true ∧ s.core.mat.mode = .threaded ∧
    (s.mapMat fun m => { m with phase := .draining .vector }).core.mat.phase = .draining .vector ∧
    (s.mapMat fun m => { m with phase := .switching .vector }).core.mat.phase = .switching .vector ∧
    { s with dev := { s.dev with service := .maquette } }.dev.service = .maquette ∧
    (s.mapCore fun c => { c with run := .halted }).core.run = .halted := by decide +kernel

theorem witness_Slots : let s := withX 0x1000 0 0 (array fun m => { m with slots := m.slots.set 2 .ready })
    s.MatrixReady true ∧ s.MatrixReady false ∧ s.core.Canonical ∧ s.core.power.quietLoad = 0 ∧ s.core.mat.slot 0 = .free ∧
      s.core.mat.slot 2 = .ready ∧ (s.x 1).toNat % 128 = 0 ∧ s.Plain ∧
      (∀ j < 2048, s.Usable (s.x 1 + BitVec.ofNat 64 (8 * j)) 8) ∧ (8 : BitVec 5).toNat = 8 ∧
      (array fun m => { m with slots := (m.slots.set 2 .ready).set 3 .ready }).core.mat.slot 3 = .ready ∧
      (array fun m => { m with slots := m.slots.set 2 .fillingLoad }).core.mat.slot 2 = .fillingLoad ∧ s.loadsInFlight < 32 ∧
      32 ≤ (s.mapVec fun v => { v with inFlight := List.replicate 32 1 }).loadsInFlight :=
  ⟨⟨rfl, .inl rfl, by decide⟩, ⟨rfl, .inl rfl, by decide⟩, canonical_reset, rfl, by decide +kernel, by decide +kernel,
    by decide +kernel, ⟨by decide +kernel, rfl, by decide +kernel, rfl, rfl, rfl, rfl, rfl⟩, by unfold State.Usable; decide +kernel,
    rfl, by decide +kernel, by decide +kernel, by decide +kernel, by decide +kernel⟩

/-- Slots on which each instruction waits, and the misuses of a block format. -/
theorem witness_Slots_waits : let s (k : Nat) (x : SlotState) := array fun m => { m with slots := (m.slots.set 2 .ready).setIfInBounds k x }
    (s 2 .chainLanding).core.mat.slot 2 = .chainLanding ∧ (s 2 .fillingChain).core.mat.slot 2 = .fillingChain ∧
      ((s 3 .fillingLoad).core.mat.slot 2 ≠ .free ∧ (s 3 .fillingLoad).core.mat.slot 3 = .fillingLoad ∧ (2 : BitVec 5).toNat % 2 = 0) ∧
      (s 3 .fillingChain).core.mat.slot 3 ≠ .ready ∧ (s 3 .free).core.mat.slot 3 = .free ∧ 5 ≤ 4 + (1 : BitVec 2).toNat ∧
      (3 : BitVec 5).toNat % 2 = 1 ∧ (s 3 .ready).core.mat.slot 3 = .ready := by decide +kernel

theorem witness_TileMoves : let s := array id
    s.MatrixReady false ∧ s.core.power.quietLoad = 0 ∧ s.core.Canonical ∧ (1 : BitVec 5).toNat < 2 ∧
      s.matrixReg (4 : BitVec 5).toNat = true ∧ s.isFull (4 : BitVec 5).toNat = true ∧ (s.x 0).toNat < s.kmrows ∧
      (s.x 0).toNat < 64 ∧ s.matrixReg (31 : BitVec 5).toNat = false := by
  refine ⟨⟨rfl, .inl rfl, by decide⟩, rfl, canonical_reset, by decide, ?_⟩
  decide +kernel

theorem witness_MatrixProducts : let s := array id
    s.core.stopAt = none ∧ s.predOk false = true ∧ s.core.mat.kmstep.toNat < s.core.mat.predDepth.toNat ∧
      (matFormat 0 0).isSome = true ∧ (activationFormat 0 0).isSome = true ∧
      (s.groupRegs 4 4 16 ++ s.groupRegs 6 128 16).all s.matrixReg = true ∧
      (s.groupRegs 4 4 16 ++ s.groupRegs 6 128 16).all s.isFull = true ∧ s.core.mat.wv = false ∧
      matFormat 1 3 = none := by decide +kernel

theorem witness_WeightStreaming : let s := array fun m => { m with wv := true }
    ∃ a, activationFormat 0 0 = some a ∧ s.core.mat.wv = true ∧ weightMatches a s.core.mat.wfmt.toNat = true ∧
      s.predOk true = true ∧ s.core.mat.kmstep.toNat < s.core.mat.predRows.toNat ∧
      weightMatches a (s.mapMat fun m => { m with wfmt := 4 }).core.mat.wfmt.toNat = false := ⟨_, rfl, by decide +kernel⟩


/-! ### Chains and micro-threads -/

theorem witness_Chains : let s := ((array fun m => { m with slots := m.slots.set 3 .fillingChain }).mapCore fun c =>
      { c with cont := some (boundTo false .running) })
    ¬(2303 < (0 : Word).toNat ∨ 7 < (3 : Word).toNat) ∧ s.chainStatus 0 3 = 0 ∧ s.chainStatus 0 2 = 1 ∧
      (∃ k g, (s.coreOf 0).cont = some k ∧ s.region = some g) ∧ (s.coreOf 0).mat.store.wf = true ∧ s.core.id = 0 ∧
      (∀ k w, k < s.core.mat.predRows.toNat ∧ w < s.core.mat.predCols.toNat → k < s.kmrows) ∧
      s.MatrixReady false ∧ s.core.power.quietLoad = 0 ∧ 2303 < (2304 : Word).toNat := by
  refine ⟨by decide, by decide +kernel, by decide +kernel, ⟨_, _, rfl, rfl⟩, by decide +kernel, rfl, fun k w h => ?_,
    ⟨rfl, .inl rfl, by decide⟩, rfl, by decide⟩
  have hk : k < 2 := h.1
  have h2 : 2 ≤ (array id).kmrows := by decide +kernel
  exact Nat.lt_of_lt_of_le hk h2

/-- Threaded mode, with micro-thread 0 as given. -/
def threaded (h : Thread) : State :=
  ((vector 3 4).mapMat fun m => { m with mode := .threaded, ts := .initial }).mapMt fun m => { m with threads := [(0, h)] }

theorem witness_Microthreads : (threaded Thread.stopped).ThreadsReady ∧ (threaded Thread.stopped).allSettled = true ∧
    (threaded { Thread.stopped with state := .ready }).allSettled = false ∧
    ((threaded { Thread.stopped with state := .faulted }).core.mt.threads.filter fun t => t.2.state == .faulted).length ≠ 0 ∧
    (State.reset.core.mat.mode ≠ .threaded) ∧ 0 < (threaded Thread.stopped).threadCount ∧ (4 : Word).toNat % 4 = 0 ∧
    (1 : Word) ≠ 0 ∧ ¬(1 : Word).toNat ≤ (threaded Thread.stopped).tick ∧
    (1 : Word).toNat ≤ { threaded Thread.stopped with tick := 1 }.tick :=
  ⟨⟨rfl, rfl⟩, by and_intros <;> decide +kernel⟩

theorem witness_Microthreads_queues : let s := (threaded Thread.stopped).mapMt fun m => { m with counts := [(1, 2)], topPort := [9] }
    s.core.Canonical ∧ s.core.mt.escape = none ∧ s.queueCount 1 = 2 ∧ 1 < 2 * s.threadCount ∧ s.queueCount 0 = 0 ∧
      s.queueFull 0 = false ∧ (∃ w ws, s.core.mt.topPort = w :: ws) ∧
      (s.mapMt fun m => { m with counts := [(1, s.depth)] }).queueFull 1 = true ∧
      (∃ w ws, (s.mapMt fun m => { m with bottomPort := [9] }).core.mt.bottomPort = w :: ws) :=
  ⟨canonical_reset, rfl, by decide +kernel, by decide +kernel, by decide +kernel, by decide +kernel, ⟨_, _, rfl⟩,
    by decide +kernel, ⟨_, _, rfl⟩⟩

/-- Every micro-thread named, and one past the last. -/
theorem witness_Microthreads_all : (-1 : Word) = -1 ∧ (∀ u, ((threaded Thread.stopped).thread u).state ≠ .executing) ∧
    ((threaded { Thread.stopped with state := .faulted }).thread 0).state = .faulted ∧
    (threaded Thread.stopped).threadCount ≤ (BitVec.ofNat 64 (threaded Thread.stopped).threadCount).toNat := by
  refine ⟨rfl, fun u => ?_, rfl, by decide +kernel⟩
  simp only [State.thread, ThreadsState.thread, threaded, State.mapMt, State.mapMat, State.mapCore, lookup]
  split <;> nofun

/-- A broadcast starts two micro-threads, whose one fetch serves both, or faults both (R263). -/
theorem test_mtbcast_fetches_once :
    let s (d : Word) := (withX d 2 0 (threaded Thread.stopped)).writePA 0x1000 4 0x13
    let t (d : Word) : State := match exec (.mtbcast 0 1 2) (s d) with | .next u => u | _ => s d
    let u (d : Word) : State := match exec (.blockFetch 0 1) (t d) with | .next u => u | _ => s d
    (t 0x1000).core.mt.fetchGroup 1 = [0, 1] ∧ ((u 0x1000).thread 0).state = .ready ∧ ((u 0x1000).thread 1).state = .ready ∧
      ((u 0xF000000000000000).thread 0) = ((u 0xF000000000000000).thread 1) ∧
      ((u 0xF000000000000000).thread 0).state = .faulted := by decide +kernel

/-- Micro-thread 0 with a block of one word fetched, in a state that `f` makes of Ready. -/
def fetched (w : Instr) (f : Thread → Thread) : State :=
  let s := (threaded { Thread.stopped with state := .fetching, pc := 0x1000, last := 0x1000 }).writePA 0x1000 4
    ((encode w).getD 0).toNat
  (left (fetchBlock 0 s)).mapThread 0 f

/-- What a word comes to, or the cause it raises. -/
def ending (w : Word32) (s : State) : Option WordEnd ⊕ Nat := match runWord 0 w s with
  | .ok e _ => .inl (some e)
  | .error (.trap c _) _ => .inr c
  | .error .wait _ => .inl none

def executing (h : Thread) : Thread := { h with state := .executing }
def blocked (h : Thread) : Thread := { h with state := .blocked, inSend := true, age := 64 }

/-- Eighteen micro-threads that ask for as many blocks, the last one after the others. -/
def crowded : State := (threaded Thread.stopped).mapMt fun m => { m with
  threads := (List.range 18).map fun k => (k, { Thread.stopped with state := .fetching, pc := BitVec.ofNat 64 (128 * k), asked := k }) }

theorem witness_Microthreads_fetch : (match fetchBlock 0 (threaded { Thread.stopped with state := .fetching, pc := 0x1000 }) with
      | .ok b _ => b
      | .error _ _ => false) = true ∧
    (match fetchBlock 0 (threaded { Thread.stopped with state := .fetching, pc := 0xF000000000000000 }) with
      | .error (.trap c _) _ => decide (c = 1)
      | _ => false) = true := by decide +kernel

theorem witness_Microthreads_issue : (fetched .mtstop id).canIssue 0 = true ∧ 0 < (fetched .mtstop id).lanes ∧
    0 < 256 / (fetched .mtstop id).nreg ∧ (threaded Thread.stopped).canIssue 0 = false := by decide +kernel

/-- The state in which a word runs: its buffer the last to be replaced, no conflict counted. -/
def used (s : State) : State := (s.useBuffer 0).mapCore fun c => { c with raceSectors := [] }

theorem witness_Microthreads_used : (used (fetched .mtstop executing)).threadWord 0 = encode .mtstop ∧
    (fetched .mtstop executing).core.run ≠ .halted ∧
    ending ((encode .mtstop).getD 0) (used (fetched .mtstop executing)) = .inl (some .stop) ∧
    ending ((encode (.mtid 0 4)).getD 0) (used (fetched .mtstop executing)) = .inl (some .next) := by decide +kernel

theorem witness_Microthreads_recent : ((fetched .mtstop executing).core.mt.buffers.find? fun b =>
    some b.line = ((fetched .mtstop executing).thread 0).line).isSome = true := by decide +kernel

theorem witness_Microthreads_word : ((fetched .mtstop executing).thread 0).state = .executing ∧
    ((fetched .mtstop executing).thread 0).moved = false ∧ (fetched .mtstop executing).threadWord 0 = encode .mtstop ∧
    ending ((encode (.mtid 0 4)).getD 0) (fetched .mtstop executing) = .inl (some .next) ∧
    ending ((encode .mtstop).getD 0) (fetched .mtstop executing) = .inl (some .stop) ∧
    ending ((encode (.mtfetch 4)).getD 0) (fetched .mtstop executing) = .inl (some (.jump 0)) ∧
    ending ((encode (.mtrecv 0 0 4)).getD 0) (fetched .mtstop executing) = .inl (some (.blocked false)) ∧
    ending 0 (fetched .mtstop executing) = .inr 48 ∧ (fetched .mtstop executing).blockOp 1 = none := by decide +kernel

/-- A fetch that no older request keeps from a free buffer, one that finds every buffer older requests', and threads frozen. -/
theorem witness_Microthreads_buffers :
    (let s := threaded { Thread.stopped with state := .fetching, pc := 0x1000 };
      (s.thread 0).state = .fetching ∧ (s.thread 0).line = none ∧ s.core.mt.frozen = false ∧
        s.olderFetches 0 < s.core.mt.freeBuffers ∧ (s.mapMt fun m => { m with frozen := true }).core.mt.frozen = true) ∧
    crowded.core.mt.freeBuffers ≤ crowded.olderFetches 17 ∧ crowded.blockPresent 17 = false := by decide +kernel

theorem witness_Microthreads_operations : (∃ op, (fetched .mtstop executing).blockOp ((encode (.vaddVv 3 1 2 1)).getD 0) =
      some (.int op 3 2 (.vec 1)) ∨ (fetched .mtstop executing).blockOp ((encode (.vaddVv 3 1 2 1)).getD 0) =
      some (.int op 3 1 (.vec 2))) ∧
    (fetched .mtstop executing).blockOp ((encode (.mtid 0 4)).getD 0) = some (.ident 0 4) := ⟨⟨_, .inr rfl⟩, rfl⟩

/-- A send of micro-thread 0 that finds the queue above full and waits since 64 cycles. -/
noncomputable def sending : State := (fetched (.mtsend 0 0 4) blocked).mapMt fun m => { m with counts := [(2, 4)] }

theorem witness_Microthreads_transfers : sending.blockedOn 0 = some (true, 2, 4) ∧ sending.queueFull 2 = true ∧
    (fetched (.mtsend 0 0 4) blocked).queueFull 2 = false ∧ sending.escapee = some 0 ∧ sending.core.mt.escape = none ∧
    (fetched (.mtrecv 0 0 4) blocked).blockedOn 0 = some (false, 0, 4) ∧ (fetched (.mtrecv 0 0 4) blocked).queueCount 0 = 0 := by
  decide +kernel

/-- A receive with acq that waits on a queue that has a word. -/
noncomputable def receiving : State := (fetched (.mtrecv 1 0 4) blocked).mapMt fun m => { m with counts := [(0, 1)] }

theorem witness_Microthreads_receive : (receiving.thread 0).state = .blocked ∧ receiving.core.mt.frozen = false ∧
    receiving.blockedOn 0 = some (false, 0, 4) ∧ receiving.queueCount 0 ≠ 0 ∧ 0 < receiving.threadCount ∧
    receiving.core.mt.escape = none ∧ receiving.blockedAcquires 0 = true := by decide +kernel


/-! ### Copies -/

/-- A copy entry of 16 bytes from 0x1000 to 0x2000, as `f` makes it. -/
def copying (f : CopyEntry → CopyEntry) : State := State.reset.mapCopy 3 fun e =>
  f { e with shape := 16 * 2 ^ 40 + 2 ^ 28, src := 0x1000, dst := 0x2000, priv := .machine, accepted := true }

theorem witness_CopyInstructions : field (16 * 2 ^ 40 + 2 ^ 28) 40 24 ≠ 0 ∧ field (16 * 2 ^ 40 + 2 ^ 28) 28 12 ≠ 0 ∧
    field (2 ^ 28) 40 24 = 0 ∧ 17 < field (16 * 2 ^ 40 + 2 ^ 28 + 18) 0 5 ∧
    (State.reset.core.copy 0).state = .free ∧ State.reset.permittedEngines ≠ [] ∧ (bound false).permittedEngines = [] ∧
    State.reset.dev.ports[0]?.any (·.inService) = false ∧
    ({ State.reset with dev := { State.reset.dev with ports := Vector.replicate 18 ⟨true, false, []⟩ } }.dev.ports[0]?.any (·.inService)) =
      true ∧
    State.reset.core.qc.length < 16 ∧ 16 ≤ (State.reset.mapCore fun c => { c with qc := List.replicate 16 0 }).core.qc.length ∧
    (let s := State.reset.mapCore fun c => { c with copies := c.copies.map fun e => { e with state := .done } };
      ∀ k < 64, (s.core.copy k).state ≠ .free) := by decide +kernel

theorem witness_CopyInstructions_entries : (64 : Word).toNat = 64 ∧ (64 : Word) ≠ -1 ∧
    ((copying fun e => { e with state := .running }).core.copy 3).state = .running ∧
    ((copying fun e => { e with state := .suspended }).core.copy 3).state = .suspended ∧
    (let e := (copying fun e => { e with state := .done, lt := true, late := true }).core.copy 3;
      e.state ∈ [.free, .done, .faulted, .cancelled] ∧ e.lt = true ∧ e.late = true) ∧
    (let e := (copying fun e => { e with state := .faulted }).core.copy 3;
      (e.lt && e.late) = false ∧ e.state = .faulted ∧ e.obs = false) ∧
    6 < (7 : BitVec 10).toNat ∧ State.reset.tick < (1 : Word).toNat ∧ State.reset.core.sleep ≠ some true ∧
    (State.reset.mapCore fun c => { c with sleep := some true }).core.sleep = some true ∧ (0 : Word).toNat ≤ State.reset.tick := by
  decide +kernel

/-- All ones: entry 0 done and entry 1 as given. -/
def several (f : CopyEntry → CopyEntry) : State :=
  (State.reset.mapCopy 0 fun e => { e with state := .done }).mapCopy 1 f

/-- What `cpwait` of all ones may meet at entry 1 once entry 0 is behind it: one in progress, one whose promise was missed,
one with a fault nobody has seen, and nothing of the kind. -/
theorem witness_CopyInstructions_all : (-1 : Word) = -1 ∧
    (((several id).core.copy 0).state ∉ [.queued, .running, .stopping] ∧ ((several id).core.copy 0).lt = false ∧
      ((several id).core.copy 0).state ≠ .faulted) ∧
    ((several fun e => { e with state := .running }).core.copy 1).state ∈ [.queued, .running, .stopping] ∧
    (let e := (several fun e => { e with state := .done, lt := true, late := true }).core.copy 1;
      e.state ≠ .suspended ∧ e.lt = true ∧ e.late = true ∧ e.state ∉ [.queued, .running, .stopping]) ∧
    (let e := (several fun e => { e with state := .faulted }).core.copy 1;
      e.state = .faulted ∧ e.obs = false ∧ e.lt = false ∧ e.state ∉ [.queued, .running, .stopping]) ∧
    (∀ j < 64, ((several id).core.copy j).state ∉ [.queued, .running, .stopping, .faulted] ∧
      ((several id).core.copy j).lt = false) ∧
    ((several fun e => { e with state := .suspended }).core.copy 1).state ∈ [.queued, .running, .stopping, .suspended] := by
  decide +kernel

theorem witness_CopySteps_accept : ∃ k, (State.reset.mapCore fun c => { c with qc := [3] }).core.qc = 3 :: [] ∧
    (State.reset.mapCore fun c => { c with qc := [3] }).chooseEngine = some k ∧
    ((State.reset.engineItems 0 k).filter (State.reset.engineHolds k)).length < 128 ∧
    (((State.reset.engineItems 0 k).filter (State.reset.engineHolds k)).filter fun i =>
      ((State.reset.coreOf i.core).copy i.entry).occupies).length < 128 ∧
    ((copying fun e => { e with state := .queued }).core.copy 3).accepted = true :=
  ⟨0, rfl, by decide +kernel, by decide +kernel, by decide +kernel, rfl⟩

/-- Where every engine of CPMASK belongs to a dedicated region of others, a copy is issued and stays at the head of qc (R308, R323). -/
theorem test_issue_with_engines_owned :
    let s := ((((((regions (bound false)).setRcbField 0 32 4 15).setRcbField 1 32 4 15).setRcbField 1 12 4 0x7FF).setRcbField 1 8 2 4).mapVec
      fun v => { v with kcpshape := 16 * 2 ^ 40 + 2 ^ 28 })
    let s : State := { s with live := [0, 1] }
    s.permittedEngines = [0, 1, 2, 3] ∧ s.engineOpen 0 = false ∧
    (match exec (.cpissue 7 5 6) s with
      | .next t => decide (t.x 7 = 0) && decide (t.core.qc = [0]) && decide (t.chooseEngine = none)
      | _ => false) = true := by decide +kernel

/-- The copy at the head keeps the engines that were permitted as it got there; where every one has been taken, none is left. -/
theorem witness_CopySteps_head : (State.reset.mapCore fun c => { c with qc := [3], headEngines := [2, 3] }).chooseEngine = some 2 ∧
    [2, 3].Pairwise (· < ·) ∧ (bound false).headChoices = [] := by decide +kernel

/-- A copy whose source and destination lie differently in their sectors clears the poison of a sector it writes whole (R376). -/
theorem test_copy_clears_poison :
    let s := (State.reset.writePA 0x1008 8 0x0807060504030201).mapMem fun m => { m with poison := [0x2000 / 32] }
    let s := s.mapCopy 3 fun e => { e with shape := 32 * 2 ^ 40 + 2 ^ 28, src := 0x1008, dst := 0x2000, priv := .machine
                                           accepted := true, state := .running }
    (match exec (.copyDone 0 3 1) s with
      | .next t => decide (t.mem.poison = []) && decide (t.readPA 0x2000 8 = 0x0807060504030201) &&
          decide ((t.core.copy 3).state = .done)
      | _ => false) = true := by decide +kernel

theorem witness_CopySteps_done : let s := copying fun e => { e with state := .running }
    let e := s.core.copy 3
    s.core.id < 2304 ∧ e.moving = true ∧ e.lost = false ∧ e.done = 0 ∧ 0 < e.total ∧ e.total ≤ 4096 ∧ (∀ t, e.advanced = some t → t + 40 ≤ s.tick) ∧
      e.kind = .local ∧ e.priv = .machine ∧ s.Plain ∧ s.Inv ∧
      (∀ k < e.total, s.Usable (e.srcAt k) 1 ∧ s.Usable (e.dstAt k) 1) ∧
      (∀ j < e.total, ∀ k < e.total, Apart (e.srcAt j).toNat 1 (e.dstAt k).toNat 1 ∧
        (j ≠ k → Apart (e.dstAt j).toNat 1 (e.dstAt k).toNat 1)) :=
  ⟨by decide +kernel, by decide +kernel, rfl, by decide +kernel, by decide +kernel, by decide +kernel, nofun, rfl, rfl,
    ⟨by decide +kernel, rfl, by decide +kernel, rfl, rfl, rfl, rfl, rfl⟩, rfl, by unfold State.Usable; decide +kernel,
    by unfold Apart; decide +kernel⟩

theorem refuses {r : Except XFault α} (h : (match r with | .ok _ => false | .error _ => true) = true) : ∃ x, r = .error x := by
  cases r with
  | ok _ => cases h
  | error x => exact ⟨x, rfl⟩

theorem witness_CopySteps_fault : let s := copying fun e => { e with state := .running, src := 2 ^ 60 }
    (s.core.copy 3).moving = true ∧ (s.core.copy 3).kind = .local ∧ (s.core.copy 3).done < (s.core.copy 3).total ∧
      (s.core.copy 3).lost = false ∧ ∃ x, s.resolve ((s.core.copy 3).space 0) .load ((s.core.copy 3).srcAt (s.core.copy 3).done) = .error x :=
  ⟨by decide +kernel, by decide +kernel, by decide +kernel, by decide +kernel, refuses (by decide +kernel)⟩

theorem witness_CopySteps_stop :
    (let e := (copying fun e => { e with state := .stopping }).core.copy 3;
      e.state = .stopping ∧ e.lost = false ∧ e.advanced = none) ∧
    (let s := { copying fun e => { e with state := .stopping, advanced := some 5 } with tick := 6 };
      (s.core.copy 3).state = .stopping ∧ (s.core.copy 3).lost = false ∧ (s.core.copy 3).advanced = some 5 ∧ ¬5 + 40 ≤ s.tick) ∧
    (let e := (copying fun e => { e with state := .running, kind := .get }).core.copy 3;
      e.moving = true ∧ e.lost = false ∧ e.kind ≠ .local ∧ e.done < e.total) ∧
    (let e := (copying fun e => { e with state := .done }).core.copy 3; e.moving = false ∧ e.lost = false) := by decide +kernel

theorem witness_CopySteps_miss :
    (let s := { copying fun e => { e with state := .running, promise := 5 } with tick := 7 };
      let e := s.core.copy 3;
      e.accepted = true ∧ e.state ∈ [.queued, .running, .stopping] ∧ e.promise ≠ 0 ∧ e.promise + 1 < s.tick ∧ e.missed = false ∧
        s.core.run ≠ .halted ∧ (s.core.copy 4).state = .free) ∧
    (let s := { copying fun e => { e with state := .running, promise := 5, late := true } with tick := 6 };
      (s.core.copy 3).late = true ∧ (s.core.copy 3).missed = false ∧ ¬(s.core.copy 3).promise + 1 < s.tick ∧
        (s.core.copy 3).promise + 1 < s.tick + 1) ∧
    (let s := { copying fun e => { e with state := .running, promise := 5, missed := true } with tick := 7 };
      (s.core.copy 3).missed = true) := by decide +kernel

/-! ### Contexts, redirects, power -/

theorem witness_ContextSave : let s := supervisor
    s.core.priv ≠ .user ∧ s.core.siding.state ≠ .held ∧ s.core.mat.mode = .vector ∧
      s.NoneExecuting ∧ s.mustStop s.core.id = false ∧ s.core.siding.image.wf = true ∧
      (∀ n < 64, (s.core.copy n).state ∉ [.queued, .running, .stopping]) :=
  ⟨by decide, by decide, rfl, nofun, by decide +kernel, rfl, by decide +kernel⟩

theorem witness_ContextLoad : let s := supervisor.mapCore fun c => { c with siding := { c.siding with state := .held } }
    let d := s.core.siding
    let powered := if d.image.read 11 1 % 8 = 0 then max 1 (min (VCfg.ofWord (d.image.item 78)).g s.lanes) else s.lanes
    d.state = .held ∧ d.bad = false ∧ s.mustStop s.core.id = false ∧
      ¬s.core.power.modeCharge + 60 * (s.core.power.powered - 1) < modeLoad (LaneMode.ofCode (d.image.read 11 1 % 8)) powered ∧
      BitVec.ofNat 128 (d.image.read 16 16) = s.core.vec.laneMap - s.core.vec.laneMap ∧ d.image.wf = true := by
  decide +kernel

/-- A core whose own domain is quiescing, in supervisor mode. -/
theorem witness_ContextLoad_stops : let s := stopping.mapCore fun c => { c with priv := .supervisor }
    s.core.priv ≠ .user ∧ s.mustStop s.core.id = true := by decide +kernel

/-- A restore that raises the load, and can be paid. -/
theorem witness_ContextLoad_charged : let s := supervisor.mapCore fun c =>
      { c with siding := { c.siding with state := .held, image := ByteMap.write [] 11 1 2 } }
    s.core.power.modeCharge + 60 * (s.core.power.powered - 1) < modeLoad (LaneMode.ofCode (s.core.siding.image.read 11 1 % 8)) s.lanes ∧
      s.Affordable (modeLoad .matrix s.lanes - (s.core.power.modeCharge + 60 * (s.core.power.powered - 1))) :=
  ⟨by decide +kernel, rfl, (fun _ => rfl), rfl, by decide +kernel⟩

theorem witness_ContextLoad_bad : let s := supervisor.mapCore fun c => { c with siding := { c.siding with state := .held, bad := true } }
    s.core.siding.state = .held ∧ s.core.siding.bad = true ∧ s.mustStop s.core.id = false := by decide +kernel

theorem witness_Redirects : ∃ v s1, (∀ i, i < 64 → i ∉ [26, 27, 28, 29, 31, 49, 50, 53] → bit (0x4000000 : Word) i = false) ∧
    (0x1000 : Word).toNat % 32 = 0 ∧ (0x4000000 : Word) ≠ 0 ∧ scalarLoad 0x1000 8 (user 0 0) = .ok v s1 ∧
    (∃ k, (bound false).core.cont = some k ∧ (bound false).isLive k.region = true) ∧
    supervisor.core.cont = none ∧ supervisor.isLive (0 : Word).toNat = true ∧ supervisor.isLive (1 : Word).toNat = false :=
  ⟨_, _, by decide +kernel, by decide, by decide, rfl, ⟨_, rfl, by decide +kernel⟩, rfl, by decide +kernel,
    by decide +kernel⟩

theorem witness_Redirects_placed : ∀ s ∈ [bound false, supervisor], s.Inv ∧ s.mem.discards = [] ∧ s.kregbase.toNat % 2 ^ 20 = 0 ∧
    (∀ g ∈ s.live, g < 4096) ∧ ∀ q ∈ s.cores, ∀ k, q.siding.holder = some k ∨ q.cont = some k → k.region < 4096 := by
  intro s h
  obtain rfl | rfl : s = bound false ∨ s = supervisor := by simpa using h
  all_goals
    refine ⟨rfl, rfl, by decide +kernel, by decide +kernel, fun q hq k hk => ?_⟩
    cases hq with
    | head => rcases hk with hk | hk <;> cases hk <;> decide
    | tail _ h => cases h

/-- A caller that the fault domain holds, and callers that it does not. -/
theorem witness_Redirects_inside : (bound false).region = some 0 ∧ (bound false).isLive 0 = true ∧
    (bound false).region.any ((bound false).within ((bound false).domainRoot maxLevel 0)) = true ∧
    supervisor.region.any (supervisor.within (supervisor.domainRoot maxLevel 0)) = false ∧
    (let s := { ((bound false).mapCore fun c => { c with priv := .supervisor }) with live := [0, 1] };
      s.core.priv ≠ .user ∧ s.isLive 1 = true ∧ s.region.any (s.within (s.domainRoot maxLevel 1)) = false) := by decide +kernel

theorem witness_Redirects_return : let s := (user 0 0).mapCore fun c => { c with redirect := ⟨0x4000, 0x1000, 0x4000000, true⟩ }
    ∃ v s1, s.core.priv = .user ∧ s.core.redirect.active = true ∧ scalarLoad (s.core.redirect.block + 8) 8 s = .ok v s1 :=
  ⟨_, _, rfl, rfl, rfl⟩

theorem witness_StorageErrors : let s := supervisor.mapCore fun c => { c with storageErrors := [0x180] }
    (∃ e es, s.core.run = .running ∧ s.core.storageErrors = e :: es ∧ s.interruptible = true) ∧
      (s.mapCore fun c => { c with begun := .saving }).interruptible = false ∧ supervisor.core.storageErrors = [] :=
  ⟨⟨_, _, rfl, rfl, by decide +kernel⟩, by decide +kernel, rfl⟩

/-- What waits at a core in user mode whose domain is quiescing does not trap (R345). -/
theorem test_quiescence_takes_no_trap : let s := (stopping.mapCore fun c => { c with storageErrors := [0x180] }).mapCsr fun c =>
      { c with mie := 0x10000, mip := 0x10000, mideleg := 0x10000 }
    s.enabledInterrupt = some 16 ∧ ∀ i ∈ [Instr.interruptTrap 0 0, .storageErrorTrap 0], (match exec i s with
      | .next t => decide (t.core.run = .idle) && decide (t.core.csr.scause = s.core.csr.scause)
      | _ => false) = true := by decide +kernel

theorem witness_ContextSave_shadow : let s := (bound false).mapCore fun c =>
      { c with siding := { c.siding with state := .shadow, record := 0x10000, holder := some (boundTo false .running) } }
    s.core.siding.state = .shadow ∧ s.core.cont.any s.core.siding.holds = true := by decide +kernel

theorem witness_Interrupts : let s := (user 0 0x10000).mapCsr fun c => { c with mie := 0x10000, mip := 0x10000 }
    s.enabledInterrupt = some 16 ∧ s.core.run = .running ∧ s.interruptible = true ∧ State.reset.core.run ≠ .running ∧
      State.reset.enabledInterrupt = none ∧ supervisor.enabledInterrupt = none ∧ supervisor.core.storageErrors = [] ∧
      supervisor.core.priv ≠ .user ∧ supervisor.core.run = .running ∧ supervisor.interruptible = true ∧
      stopping.core.priv = .user ∧ stopping.mustStop stopping.core.id = true ∧ stopping.core.run = .running ∧
      stopping.interruptible = true := by decide +kernel

theorem witness_VoluntaryCeiling : (5 : Word) ≠ 0 ∧ (128 : Word).toNat ≤ 128 ∧ (129 : Word) ≠ -1 ∧ 128 < (129 : Word).toNat := by decide

theorem witness_PowerInstructions : 512 ≤ (512 : Word).toNat ∧ State.reset.core.id / 96 < 24 ∧ State.reset.core.priv ≠ .user ∧
    (State.reset.cluster 0).dvfs = .idle ∧ (11 : Word).toNat % 16 ≤ (State.reset.cluster 0).maxlvl ∧
    420 + 5 * ((11 : Word).toNat / 16) ≤
      State.reset.dev.dvfsTable[min ((11 : Word).toNat % 16) ((State.reset.cluster 0).level + 1)]?.getD 0 ∧
    ((State.reset.mapCluster 0 fun c => { c with dvfs := .voltUp }).cluster 0).dvfs ≠ .idle ∧
    ((State.reset.mapCluster 0 fun c => { c with maxlvl := 3 }).cluster 0).maxlvl < (4 : Word).toNat % 16 ∧
    State.reset.dev.dvfsTable[min ((0x10 : Word).toNat % 16) ((State.reset.cluster 0).level + 1)]?.getD 0 <
      420 + 5 * ((0x10 : Word).toNat / 16) ∧
    (0x1A : Word).toNat % 16 = (State.reset.cluster 0).level ∧ (State.reset.cluster 0).undervolt ≠ (0x1A : Word).toNat / 16 ∧
    (0xA : Word).toNat % 16 = (State.reset.cluster 0).level ∧ (State.reset.cluster 0).undervolt = (0xA : Word).toNat / 16 ∧
    State.reset.core.power.paid = false ∧ State.reset.core.power.pin = none ∧ (State.reset.die 0).charges = [] ∧
    min (100 : Word).toNat (14420 - State.reset.core.power.held) ≤ (State.reset.die 0).bUp ∧
    95 < (96 : Word).toNat ∧ 2 < (3 : Word).toNat := by decide +kernel

/-- A `pwreq` for the level and the offset in force is no event of the table of R366: forced stays (R8). -/
theorem test_pwreq_repeated_keeps_forced :
    let s := (State.reset.mapCluster 0 fun c => { c with forced := true }).mapCore fun c =>
      { c with regs := c.regs.setIfInBounds 5 0xA }
    (match exec (.pwreq 6 5 0) s with
      | .next t => decide (t.cluster 0 = s.cluster 0) && decide (t.x 6 = 0)
      | _ => false) = true := by decide +kernel

/-- A load that cannot be paid, one that is fixed while it waits, one that has been paid, and a held load that no release
waits for. -/
theorem witness_PowerInstructions_pin :
    (State.reset.mapDie 0 fun d => { d with charges := [⟨.level 3, 800, none⟩] }).core.power.paid = false ∧
    ((State.reset.mapDie 0 fun d => { d with charges := [⟨.level 3, 800, none⟩] }).die 0).charges ≠ [] ∧
    ((State.reset.mapDie 0 fun d => { d with bUp := 7 }).die 0).bUp < 100 ∧
    (let s := State.reset.mapCore fun c => { c with power := { c.power with pin := some 100, paid := true, held := 50 } };
      s.core.power.paid = true ∧ s.core.power.pin.getD 0 ≠ 0 ∧ s.core.power.held + 100 ≤ 14420 ∧
        ¬s.core.power.held ≤ (((s.die 0).releases.filter (Release.holds 0)).map (·.held)).sum) := by decide +kernel

def slot (g : GateState) : State := State.reset.mapCore fun c => { c with power := { c.power with gate := g } }

theorem witness_PowerSlots : ((bound false).coreOf 0).slotCode = 0 ∧ ((slot .active).coreOf 0).slotCode = 1 ∧
    ((slot (.hold 0)).coreOf 0).slotCode = 2 ∧ ((slot .gated).coreOf 0).slotCode = 4 := by decide +kernel

theorem witness_GovernorSteps : (∀ d < 24, (State.reset.die d).charges = []) ∧ (State.reset.die 5).releases = [] ∧
    ((slot (.hold 0)).coreOf 0).power.gate = .hold 0 ∧ ((slot (.hold 0)).coreOf 0).cont = none ∧ 0 + 40000 ≤ { slot (.hold 0) with tick := 40000 }.tick ∧
    (slot (.hold 0)).tick < 0 + 40000 ∧
    (((slot (.waiting 0)).mapCluster 0 fun c => { c with wakes := [0] }).cluster (0 / 12)).wakes = [0] ∧
    0 + 2000 ≤ { slot (.waiting 0) with tick := 2000 }.tick ∧ ((slot (.restarting 4000)).coreOf 0).power.gate = .restarting 4000 ∧
    4000 ≤ { slot (.restarting 4000) with tick := 4000 }.tick ∧
    ((bound false).coreOf 0).cont ≠ none ∧
    ((State.reset.mapCore fun c => { c with power := { c.power with heldSince := some 0 } }).coreOf 0).power.heldSince = some 0 ∧
    0 + 4000 ≤ { State.reset with tick := 4000 }.tick ∧ State.reset.tick < 0 + 4000 := by
  decide +kernel

theorem witness_GovernorSteps_loads :
    (let s := (bound false).mapCore fun c => { c with power := { c.power with qvIdle := 1000, powered := 4 } };
      (s.coreOf 0).cont.isSome = true ∧ s.corePinned 0 = false ∧ 1000 ≤ (s.coreOf 0).power.qvIdle ∧
        (s.coreOf 0).power.quietLoad = 0 ∧ 60 * ((s.coreOf 0).power.powered - 1) + (s.coreOf 0).power.modeCharge ≠ 0) ∧
    State.reset.core.cont = none ∧ State.reset.core.power.heldSince = none ∧ (bound false).core.cont ≠ none ∧
    ((State.reset.mapCore fun c => { c with power := { c.power with heldSince := some 0 } }).coreOf 0).power.heldSince = some 0 := by
  decide +kernel

theorem witness_GovernorSteps_clusters :
    ((State.reset.mapCluster 0 fun c => { c with dvfs := .voltUp }).cluster 0).dvfs = .voltUp ∧
    ((State.reset.mapCluster 0 fun c => { c with dvfs := .freqDown }).cluster 0).dvfs = .freqDown ∧
    (State.reset.cluster 0).arrive ≤ State.reset.tick ∧ (State.reset.cluster 0).dvfs = .idle ∧
    State.reset.tick < ((State.reset.mapCluster 0 fun c => { c with dvfs := .voltUp, arrive := 100 }).cluster 0).arrive ∧
    (State.reset.cluster 0).samples < { State.reset with tick := 10000 }.tick / 10000 ∧
    State.reset.tick / 10000 ≤ (State.reset.cluster 0).samples := by decide +kernel

/-- Cluster 9 at level 10 on its way to another level, at its target, and above its limit. -/
def gliding (x : DvfsState) (target maxlvl : Nat) : State :=
  State.reset.mapCluster 9 fun c => { c with dvfs := x, target := target, maxlvl := maxlvl }

theorem witness_GovernorSteps_glides :
    (∀ x ∈ [DvfsState.voltDown, .voltAdj, .freqUp], ((gliding x 12 15).cluster 9).dvfs = x ∧
      ((gliding x 12 15).cluster 9).arrive ≤ (gliding x 12 15).tick) ∧
    ((gliding .freqUp 12 15).cluster 9).level + 1 < ((gliding .freqUp 12 15).cluster 9).target ∧
    ((gliding .voltDown 7 15).cluster 9).target < ((gliding .voltDown 7 15).cluster 9).level ∧
    ((gliding .voltAdj 10 15).cluster 9).target = ((gliding .voltAdj 10 15).cluster 9).level ∧
    ((gliding .voltAdj 10 15).cluster 9).level ≤ ((gliding .voltAdj 10 15).cluster 9).maxlvl ∧
    ((gliding .voltAdj 10 4).cluster 9).maxlvl < ((gliding .voltAdj 10 4).cluster 9).level := by decide +kernel

/-- A level's charge and a level's release that are due, with nothing waiting on another die. -/
theorem witness_GovernorSteps_pays :
    (let s := (gliding .charging 12 15).mapDie 1 fun d => { d with charges := [⟨.level 9, 9600, none⟩] };
      (s.cluster 9).dvfs = .charging ∧ (s.die 1).charges = [⟨.level 9, 9600, none⟩] ∧ (s.die 1).releases = [] ∧
        9600 ≤ (s.die 1).bUp ∧ ∀ i < 24, ¬i = 1 → (s.die i).charges = [] ∧ (s.die i).releases = []) ∧
    (let s := (gliding .releasing 7 15).mapDie 1 fun d => { d with releases := [⟨108, 9600, .level 9, 0⟩] };
      (s.cluster 9).dvfs = .releasing ∧ (s.die 1).charges = [] ∧ (s.die 1).releases = [⟨108, 9600, .level 9, 0⟩] ∧
        9600 ≤ (s.die 1).bDn ∧ ∀ i < 24, ¬i = 1 → (s.die i).charges = [] ∧ (s.die i).releases = []) := by decide +kernel

/-! ### Errors, the host, the peers, bring-up -/

/-- A core that exists in each place that an error names: an L2 slice, a channel and a lane slice of die 1. -/
theorem witness_ErrorsAndPorts : (State.reset.die 1).logBase = 0 ∧ 100 < 2304 ∧ 100 / 96 = 1 ∧ homeSlice (2 ^ 37 + 128 * 4) = 100 ∧
    (let a := 2 ^ 37 + 128 * 7;
      isHbm a = true ∧ canonical a / 2 ^ 37 = 1 ∧ (64 + 32 * hbmStack a + hbmChannel a) / 64 = 1 ∧
        (64 + 32 * hbmStack a + hbmChannel a) / 32 % 2 = hbmStack a ∧
        (64 + 32 * hbmStack a + hbmChannel a) % 32 = hbmChannel a) ∧
    (State.reset.coreOf 100).reported.getLsbD 5 = false ∧
    (let s := { State.reset with dev := { State.reset.dev with threshold := 1 } };
      s.dev.threshold ≤ ((s.coreOf 0).laneErrors.filter fun e => s.tick < e.1 + 2 ^ 30 && e.2 = 5).length + 1 ∧
        (s.coreOf 0).reported.getLsbD 5 = false) ∧
    ((State.reset.mapCore fun c => { c with reported := 32 }).coreOf 0).reported.getLsbD 5 = true ∧
    State.reset.others = [] ∧ State.reset.core.id < 2304 ∧ State.reset.core.run ≠ .halted ∧ (State.reset.die 0).logBase = 0 ∧ State.reset.dev.service ≠ .full ∧
    (serving .full).dev.service = .full ∧ State.reset.dev.marom = false ∧
    { State.reset with dev := { State.reset.dev with marom := true } }.dev.marom = true := by decide +kernel

/-- The ring of die 0 at 0x100000, with room and full. -/
def ring (full : Bool) : State :=
  (State.reset.mapDie 0 fun d => { d with logBase := 0x100000 }).writePA 0x100000 8 (if full then 256 else 0)

theorem witness_ErrorsAndPorts_ring (full : Bool) : let s := ring full
    let b := (s.die 0).logBase
    b ≠ 0 ∧ b % 32 = 0 ∧ b + 16448 ≤ 2 ^ 48 ∧ s.mem.discards = [] ∧ s.Inv ∧ s.tick < 2 ^ 64 ∧
      (decide ((s.readPA b 8 + 2 ^ 64 - s.readPA (b + 8) 8) % 2 ^ 64 = 256) = full) := by
  cases full <;> exact ⟨by decide +kernel, by decide +kernel, by decide +kernel, rfl, rfl, by decide +kernel, by decide +kernel⟩

/-- A get on port 3 that its engine has accepted: it may fail at once, or has moved a chunk less than 40 ticks ago. -/
theorem witness_ErrorsAndPorts_port :
    let remote (f : CopyEntry → CopyEntry) := copying fun e => f { e with
      state := .running, kind := .get, shape := 16 * 2 ^ 40 + 2 ^ 28 + 3 }
    let e := (remote id).core.copy 3
    (e.kind ≠ .local ∧ e.port = 3 ∧ e.accepted = true ∧ e.state ∈ [.queued, .running, .stopping] ∧ e.advanced = none) ∧
      ((remote fun e => { e with advanced := some 0 }).core.copy 3).advanced = some 0 ∧
      (remote fun e => { e with advanced := some 0 }).tick < 0 + 40 ∧ (remote id).others = [] ∧
      ((remote id).die 0).logBase = 0 := by decide +kernel

/-- Host memory has no discarded page; a page of device memory whose leaf lies outside it is discarded. -/
def pageless : State := (State.reset.writePA 0x30008 8 0x510C7).mapMem fun m =>
  { m with discards := [⟨0x50000, 16, 0x30008⟩] }

theorem witness_OutsideAccesses_discarded : ∃ d, pageless.Inv ∧ pageless.deviceAddress 0x50010 = true ∧
    (pageless.mem.discards.find? fun d => pageHolds d.base d.bits (canonical 0x50010)) = some d ∧
    (pageless.readPA d.pteAddr 8).testBit 12 = true ∧
    (∀ i < 8, pageHolds d.base d.bits (canonical d.pteAddr + i) = false) :=
  ⟨_, rfl, by decide +kernel, rfl, by decide +kernel, by decide +kernel⟩

theorem witness_OutsideAccesses_poisoned : let s := State.reset.mapMem fun m => { m with poison := [8] }
    s.Inv ∧ (32 = 32 ∨ 32 = 64) ∧ 0x100 % (32 / 8) = 0 ∧ s.deviceAddress 0x100 = true ∧ ∃ i < 4, s.poisoned (0x100 + i) = true ∧
      s.discardAt (0x100 + i) = none :=
  ⟨rfl, by decide, by decide, by decide +kernel, 0, by decide, by decide +kernel, rfl⟩

/-- A compare and swap that finds another value. -/
theorem witness_OutsideAccesses_unequal : State.reset.readPA 0x100 4 ≠ (1 : Word).toNat % 256 ^ 4 ∧
    State.reset.deviceAddress 0x100 = true ∧ 2 ≤ 2 ∧ 0x100 % (32 / 8) = 0 := by decide +kernel

theorem witness_OutsideAccesses : State.reset.Inv ∧ State.reset.mem.discards = [] ∧ State.reset.deviceAddress 0x100 = true ∧
    State.reset.deviceAddress (0x100 + 2 - 1) = true ∧ Apart 0x100 1 0x101 1 ∧ ¬State.reset.deviceAddress (2 ^ 50) = true ∧
    0x100 % (32 / 8) = 0 ∧ (∀ i < 4, State.reset.poisoned (0x100 + i) = false) ∧
    ({ State.reset with dev := { State.reset.dev with ports := Vector.replicate 18 ⟨true, false, [(0, 4096)]⟩ } }.accepted 3 0x40 8) = true ∧
    State.reset.accepted 3 0x40 8 = false :=
  ⟨rfl, rfl, by decide +kernel, by decide +kernel, .inl (by decide +kernel), by decide +kernel, by decide +kernel, by decide +kernel,
    by decide +kernel, by decide +kernel⟩

theorem witness_BringUp : State.reset.dev.service = .awaitImage ∧ (serving .verifying).dev.service = .verifying ∧
    (serving .verifying).imageRefused = false ∧ (serving .verifying).imageHeader = false ∧
    ({ serving .verifying with dev := { (serving .verifying).dev with denied := [(0, 0)] } }).imageRefused = true ∧
    (serving .training).dev.service = .training ∧ (1 : BitVec 24).getLsbD 0 = true ∧ (1 : BitVec 24) ≠ -1 ∧
    (2 : BitVec 24).getLsbD 0 = false ∧ State.reset.dev.diesok ||| (2 : BitVec 24) ≠ -1 ∧ State.reset.dev.diesok ||| (-1 : BitVec 24) = -1 ∧
    (State.reset.cores.map (·.id)).Nodup ∧ (serving .maquette).dev.service ∉ [.awaitImage, .refused] := by decide +kernel

theorem witness_BringUp_root : (serving .training).Inv ∧ (serving .training).mem.discards = [] ∧
    (serving .training).kregbase.toNat % 2 ^ 20 = 0 := ⟨rfl, rfl, by decide +kernel⟩

theorem witness_BringUp_fall : ((serving .training).cluster 3).dvfs = .idle ∧ 0 < ((serving .training).cluster 3).level := by
  decide +kernel

/-- MAXLVL 0 moves no level at once: it queues the release of the first level of the fall, 800 mA for each of 12 cores (R355, R366). -/
theorem test_forced_fall : let t := (serving .training).limitLevel 3 0
    (t.cluster 3).level = ((serving .training).cluster 3).level ∧ (t.cluster 3).dvfs = .releasing ∧ (t.cluster 3).target = 0 ∧
      (t.die 0).releases = [⟨36, 9600, .level 3, 0⟩] := by decide +kernel

/-- A header that is well formed, of a revoked key or not. -/
def header (revoked : List Nat) : State :=
  ({ serving .verifying with dev := { (serving .verifying).dev with imglen := 128, revoked := revoked } }).mapMem fun m =>
    { m with bytes := (m.bytes.write (hostPa 0) 4 0x4B5A4657).write (hostPa 8) 8 128 }

theorem witness_BringUp_header : (header [0]).imageRefused = false ∧ (header [0]).imageHeader = true ∧
    (header [0]).imageField 16 1 ∈ (header [0]).dev.revoked ∧ (header []).imageField 16 1 ∉ (header []).dev.revoked := by
  decide +kernel

/-- Queue 2 with one packet, at the first entry of its ring in host memory: TOTAL 16, SUCC as given, RECORD 0x10000. -/
def launching (succ : Nat) : State :=
  ((placed State.reset).mapVf 2 fun q => { q with qlog := 4, qbase := 0, tail := 1 }).mapMem fun m =>
    { m with bytes := ((m.bytes.write (hostPa 16) 8 16).write (hostPa 24) 8 succ).write (hostPa 40) 8 0x10000 }

/-- A packet that is accepted, and one that is refused for its SUCC. -/
theorem witness_Launch (succ : Nat) (h : succ = 0 ∨ succ = 1) : let s := launching succ
    let a := hostPa 0
    ∃ k, s.dev.vfs[2]? = some k ∧ k.stopped = false ∧ k.legal = true ∧ k.ahead ≠ 0 ∧
      hostPa (k.qbase.toNat + 64 * (k.head % 2 ^ k.qlog.toNat)) = a ∧ k.region = 0 ∧ s.dev.refuses (s.pasidOf (some 0), 0) = false ∧
      s.mem.bytes.read (a + 40) 8 = 0x10000 ∧ s.recordPa 0 0x10000 = 0x50000 ∧ s.pagePasses 0 0x10000 = true ∧ k.ahead ≤ 2 ^ k.qlog.toNat ∧ s.accepts 0 = true ∧
      0x50000 + 64 ≤ s.kregbase.toNat ∧ s.kregbase.toNat + 0x108000 ≤ 2 ^ 48 ∧ s.Inv ∧ s.mem.discards = [] ∧
      s.mem.bytes.read a 8 % 4 = 0 ∧ s.mem.bytes.read (a + 32) 1 ≤ 3 ∧ s.mem.bytes.read (a + 16) 8 ≠ 0 ∧
      s.mem.bytes.read (a + 24) 8 = succ := by
  obtain rfl | rfl := h
  all_goals
    refine ⟨_, rfl, ?_⟩
    and_intros <;> first | decide +kernel | rfl

/-- The leaf that maps the record of the packet stands below the region table. -/
theorem witness_Launch_leaf : ∀ e w, (launching 0).walk ((launching 0).recordSpace 0) 0x10000 = .ok (e, w) →
    e.pteAddr + 8 ≤ (launching 0).kregbase.toNat := leafFound (by decide +kernel)

/-- A queue whose QLOG is bad, one that TAIL is too far ahead of, and a packet whose RECORD no table maps. -/
theorem witness_Launch_stopped : let q : LaunchQueue := ⟨0, 4, 17, 0, 0, false, 0⟩
    q.legal = true ∧ 2 ^ q.qlog.toNat < q.ahead ∧ q.ahead ≠ 0 ∧ { q with qlog := 3 }.legal = false ∧
      (launching 0).pagePasses 0 0x20000 = false := by decide +kernel

/-- Packets refused for their RECORD or their page; queues that do not exist, are stopped or have nothing to launch. -/
theorem witness_Launch_refused : (3 : Word).toNat % 64 ≠ 0 ∧
    { launching 0 with dev := { (launching 0).dev with denied := [(0, 0)] } }.dev.refuses (0, hostPa 0 % 2 ^ 48 / 4096) = true ∧
    State.reset.dev.vfs[32]? = none ∧ State.reset.dev.vfs[0]?.any (fun q => q.tail == q.head) = true := by decide +kernel

/-- Reservations of two ages, and tags of a writer that has released and of one that has not (R292, R296). -/
theorem witness_Promises : (State.reset.mapCore fun c => { c with reservation := some ⟨8, 0⟩, clock := 4096 }).core.reservation =
      some ⟨8, 0⟩ ∧ ReleaseFree 1 State.reset ∧ State.reset.core.vec.cfg.vlx = false ∧ 4 < (5 : BitVec 3).toNat ∧
    (State.reset.core.qc = [] ∧ State.reset.core.vec.inFlight = []) ∧ SlotState.fillingLoad ∉ State.reset.core.mat.slots.toList ∧
    homeSlice (3 * 32) < 2304 ∧ State.reset.unreleased ⟨3, 0, 0⟩ = true ∧
    (State.reset.mapCore fun c => { c with phase := 1 }).unreleased ⟨3, 0, 0⟩ = false :=
  ⟨rfl, (fun _ _ h => nomatch h), rfl, by decide, ⟨rfl, rfl⟩, by decide +kernel, by decide +kernel, by decide +kernel,
    by decide +kernel⟩


/-! ### The spec's worked examples, one instruction at a time -/

/-- Elements 0 on of a register, at an element width. -/
def holding (w r : Nat) (xs : List Nat) (s : State) : State := s.mapVec fun v =>
  (xs.zip (List.range xs.length)).foldl (fun v p => v.putElem v.geometry w r p.2 p.1) v

/-- The first `n` elements of a register. -/
def elements (w r n : Nat) (s : State) : List Nat :=
  (List.range n).map fun i => s.core.vec.elem s.core.vec.geometry w r i

/-- A gather in the Kozia format whose element 0 meets a page that no table maps, and element 1 one that a leaf maps. -/
def gathering : State := (holding 32 7 [0x30000, 0x10000] (withX 0 0 0 (vector 2 2))).mapCore fun c =>
  { c with priv := .supervisor, csr := { c.csr with satp := setField 0x10 60 4 14 } }

/-- The pages of a gather are translated before its first access: element 0 stops it with cause 13, and the translation of element
1's page is kept, with A not set in its leaf, and so are the entries of levels 0 and 1 (R187). -/
theorem test_gather_sorts_pages : let m := ((mapped false).writePA 0x30008 8 0x50007).mem
    let t := ran (.vlxeE 0 0 4 1 7 2 1) { gathering with mem := m }
    t.core.csr.mcause = 13 ∧ t.core.csr.mtval = 0x30000 ∧ t.vstart = 0 ∧ t.core.vtlb.map (·.pteAddr) = [0x30008] ∧
      t.mem.walkers.map (·.2.addr) = [0x20000, 0x10000] ∧ t.readPA 0x30008 8 = 0x50007 := by decide +kernel

/-- A store-conditional that holds its reservation meets poison as a write of part of its sector does (R376; log entry 95). -/
theorem test_vscc_at_poison : let s := ((holding 32 7 [0x100, 0x200] (vector 2 2)).mapVec fun v =>
      { v with reservations := [⟨0, 0x100, 0⟩] }).mapMem fun m => { m with poison := [8] }
    (ran (.vscc 1 9 0 7 1) s).core.csr.mcause = 7 ∧ (ran (.vscc 1 9 0 7 1) s).core.csr.mtval = 0x100 := by decide +kernel

/-- On a discarded page an atomic reads zero and revives the page, though a sector of it has spoiled since (R189). -/
theorem test_atomic_revives : let s := (withX 0x10000 5 0 (mapped true)).mapMem fun m => { m with poison := [0x50000 / 32] }
    let t := ran (.amoaddW 3 1 2 0 0) s
    t.x 3 = 0 ∧ t.readPA 0x50000 4 = 5 ∧ t.poisoned 0x50000 = false ∧ t.core.pc = s.core.pc + 4 := by decide +kernel

/-- A quiet release that a continuation leaves behind is a release of its own (R361). -/
theorem test_quiet_settles : let s := State.reset.mapDie 0 fun d => { d with releases := [⟨0, 600, .quiet, 0⟩, ⟨1, 600, .quiet, 0⟩] }
    ((s.settleQuiet 0).die 0).releases = [⟨0, 600, .load, 0⟩, ⟨1, 600, .quiet, 0⟩] ∧
      (((s.settleQuiet 0).withdrawQuiet 0).die 0).releases = [⟨0, 600, .load, 0⟩, ⟨1, 600, .quiet, 0⟩] := by decide +kernel

/-- A tie goes to even, the greatest half-precision value is 65504, half its smallest subnormal goes to zero, and infinities of
opposite sign are invalid beside a quiet NaN (R136 to R138, R175). -/
theorem test_rounding : fp16.rnd .rne (.fin false 2049 (-11)) = (0x3C00, flagNX) ∧
    fp16.rnd .rne (.fin true 65520 0) = (0xFC00, flagOF ||| flagNX) ∧ fp16.rnd .rtz (.fin false 65520 0) = (0x7BFF, flagNX) ∧
    e4m3.rnd .rne (.fin false 465 0) = (0x7E, flagOF ||| flagNX) ∧ fp16.rnd .rne (.fin false 1 (-25)) = (0, flagNX ||| flagUF) ∧
    fp32.sum .rne [.inf false, .nan false, .inf true] = (0x7FC00000, flagNV) := by decide +kernel

/-- Sixteen lanes granted, as in the worked strip of 05_vector_integer. -/
def sixteen : State := (vector 2 16).mapVec fun v => { v with cfg := { v.cfg with g := 16 } }

/-- The worked strip of 05_vector_integer: 50 in x13. -/
def strip : State := (sixteen.setX 13 50) |> holding 32 8
  [12, 75, 50, 51, 2 ^ 32 - 3, 100, 49, 60, 0, 200, 51, 7, 99, 50, 1, 64]

/-- Mask bits 0 on of v0, below the lanes granted. -/
def masked (bs : List Nat) (s : State) : State := holding 8 0 bs s

theorem test_vcmp_keeps_above_fifty : ((List.range 16).map fun i =>
    (ran (.vcmpVx 7 0 8 13 1) strip).core.vec.maskBit sixteen.core.vec.geometry 0 i) =
      [false, true, false, true, false, true, false, true, false, true, true, false, true, false, false, true] := by
  decide +kernel

def kept : State := masked [0, 1, 0, 1, 0, 1, 0, 1, 0, 1, 1, 0, 1, 0, 0, 1] strip

theorem test_vmpopc_counts_eight : (ran (.vmpopc 14 0 1) kept).x 14 = 8 := by decide +kernel

theorem test_vcompress_packs_and_keeps_tail : elements 32 16 9 (ran (.vcompress 16 8) (holding 32 16 (List.replicate 9 7) kept)) =
    [75, 51, 100, 60, 200, 51, 99, 64, 7] := by decide +kernel

/-- The worked sums of 06_vector_float: 2^24, four ones and an absent signalling NaN, seeded by +0. -/
def summands : State := ((vector 2 6).mapVec fun v => { v with cfg := { v.cfg with g := 16 } }) |>
  masked [1, 1, 1, 1, 1, 0] |> holding 32 8 [0x4B800000, 0x3F800000, 0x3F800000, 0x3F800000, 0x3F800000, 0x7F800001]

theorem test_vftsum_rounds_by_levels : elements 32 4 1 (ran (.vftsumVs 4 8 12 0) summands) = [0x4B800002] ∧
    (ran (.vftsumVs 4 8 12 0) summands).core.vec.kvfflags = 1 := by decide +kernel

theorem test_vfosum_rounds_in_order : elements 32 5 1 (ran (.vfosumVs 5 8 12 0) summands) = [0x4B800000] ∧
    (ran (.vfosumVs 5 8 12 0) summands).core.vec.kvfflags = 1 := by decide +kernel

/-- The sixteen values and codes of the worked block of 07_narrow_formats. -/
def blockValues : List Nat := [0x40C00000, 0xBFC00000, 0x3E800000, 0x3E400000, 0, 0x3F000000, 0xBEFC0000, 0x3B800000,
  0x3C400000, 0x3F333333, 0xC0C00000, 0x40000000, 0x3D800000, 0x80000000, 0x40400000, 0x3C000000]
def blockCodes : List Nat := [0xB0, 0xCC, 0x20, 0x18, 0, 0x84, 0x7F, 0, 2, 0x86, 0xF0, 0x90, 8, 0x40, 0x98, 1]

theorem test_vbq_quantises_a_block : let t := ran (.vbq 12 8 0 0) (holding 32 8 blockValues sixteen)
    elements 8 12 16 t = blockCodes ∧ elements 16 1 1 t = [0x817D] ∧ t.core.vec.kvfflags = 3 := by decide +kernel

def quantised (s : State) : State := s |> holding 8 12 blockCodes |> holding 16 1 [0x817D]

theorem test_vbdq_expands_a_block : elements 32 16 16 (ran (.vbdq 16 12 0 1) (quantised sixteen)) =
    [0x40C00000, 0xBFC00000, 0x3E800000, 0x3E400000, 0, 0x3F000000, 0xBEFC0000, 0, 0x3C800000, 0x3F400000, 0xC0C00000,
      0x40000000, 0x3D800000, 0x80000000, 0x40400000, 0x3C000000] := by decide +kernel

theorem test_vfredbs_sums_a_block : elements 32 20 1 (ran (.vfredbs 20 12 0 1)
    (quantised (sixteen.mapVec fun v => { v with cfg := { v.cfg with sew := 0 } }))) = [0x40990000] := by decide +kernel

/-- A product of one row and two columns with four steps, two of them done: A[0][k] = 1 and B[k][1] = 3 in BF16 (R230,
R240). -/
def factors : State :=
  (State.reset.mapMat fun m => { m with mode := .matrix, ts := .initial, sk0 := true, predRows := 1, predCols := 2, predDepth := 4, kmstep := 2 }) |>
    (fun s => s.mapVec fun v =>
      let v := { v with cfg := { v.cfg with g := 128, nreg := 3, sew := 1 } }
      let geo := v.geometry
      let v := [0, 1, 2, 3].foldl (fun v i => v.putElem geo 16 8 i 0x3F80) v
      [1, 65, 129, 193].foldl (fun v i => v.putElem geo 16 16 i 0x4040) v)

/-- T[0][1] = 6.0 in a tile in array layout, in lane 0 at slot 1 (R226). -/
theorem test_mopak_sums_the_steps_left : let t := ran (.mopak 0 0 0 8 16) factors
    (t.core.vec.slice 0).read (24 * 64 + 4) 4 = 0x40C00000 ∧ t.core.mat.kmstep = 0 := by decide +kernel

end Sys2Proof.Tests
end

section
/-! SUPPORT. The vector integer family (05_vector_integer R97, R99, R108, R109, R116 to R124): what a lane computes for one
element, by the tables of the spec, and what each class of instructions does where its checks pass and where they refuse. -/

namespace Sys2Proof.Machine

/-! ### Values of one element -/

/-- `s(x)` of 05_vector_integer: a value below 2^w read as two's complement. -/
def twos (w x : Nat) : Int := if x < 2 ^ (w - 1) then x else (x : Int) - 2 ^ w

theorem emod_two_pow_of_lt {w x : Nat} (h : x < 2 ^ w) : (x : Int) % 2 ^ w = x :=
  Int.emod_eq_of_lt (Int.natCast_nonneg x) (by exact_mod_cast h)

theorem signed_eq_twos {w x : Nat} (h : x < 2 ^ w) : signed w x = twos w x := by
  simp only [signed, twos, emod_two_pow_of_lt h, Nat.mod_eq_of_lt h]

theorem signedByte_eq_toInt (v k : Nat) : signedByte v k = (BitVec.ofNat 8 (v / 256 ^ k)).toInt := by
  simp only [signedByte, signed, BitVec.toInt_eq_toNat_cond, BitVec.toNat_ofNat]
  generalize v / 256 ^ k = x
  split <;> split <;> omega

theorem extend_true_eq_twos {w x : Nat} (h : x < 2 ^ w) : extend true w x = twos w x := signed_eq_twos h

theorem extend_false_eq {w x : Nat} (h : x < 2 ^ w) : extend false w x = x := emod_two_pow_of_lt h

theorem wrap_lt (w : Nat) (z : Int) : wrap w z < 2 ^ w := by
  have hm : (0 : Int) < 2 ^ w := Int.pow_pos (by decide)
  have hlt : z % 2 ^ w < ((2 ^ w : Nat) : Int) := by
    rw [Int.natCast_pow]
    exact Int.emod_lt_of_pos z hm
  exact (Int.toNat_lt (Int.emod_nonneg z (Int.ne_of_gt hm))).2 hlt

theorem clampUnsigned_natCast (w n : Nat) : clampUnsigned w n = min n (2 ^ w - 1) := by
  have hm : 0 < 2 ^ w := Nat.two_pow_pos w
  have hc : ((2 : Int) ^ w ≤ n) ↔ 2 ^ w ≤ n := by exact_mod_cast Iff.rfl
  simp only [clampUnsigned, hc, Int.toNat_natCast]
  split
  · omega
  · split <;> omega

theorem clampUnsigned_lt (w : Nat) (z : Int) : clampUnsigned w z < 2 ^ w := by
  have hm : 0 < 2 ^ w := Nat.two_pow_pos w
  by_cases h : z < 0
  · simp only [clampUnsigned, h, if_true, hm]
  · obtain ⟨n, rfl⟩ := Int.eq_ofNat_of_zero_le (Int.not_lt.1 h)
    rw [clampUnsigned_natCast]
    omega

theorem clampUnsigned_sub {w a : Nat} (h : a < 2 ^ w) (b : Nat) : clampUnsigned w ((a : Int) - b) = a - b := by
  rcases Nat.lt_or_ge a b with hab | hab
  · simp only [clampUnsigned, show (a : Int) - b < 0 by omega, if_true]
    omega
  · rw [← Int.ofNat_sub hab, clampUnsigned_natCast]
    omega

/-- f(a, b) of R116 to R120 and R122, at the destination's old value d, as the tables of 05_vector_integer write it. -/
def intTable (op : IntOp) (w a b d : Nat) : Nat :=
  match op with
  | .add => (a + b) % 2 ^ w
  | .sub => wrap w (a - b)
  | .rsub => wrap w (b - a)
  | .minu => min a b
  | .min => if twos w b < twos w a then b else a
  | .maxu => max a b
  | .max => if twos w a < twos w b then b else a
  | .and => a &&& b
  | .or => a ||| b
  | .xor => a ^^^ b
  | .sll => a * 2 ^ (b % w) % 2 ^ w
  | .srl => a / 2 ^ (b % w)
  | .sra => wrap w (twos w a / 2 ^ (b % w))
  | .mul => a * b % 2 ^ w
  | .mulh => wrap w (twos w a * twos w b / 2 ^ w)
  | .macc => (d + a * b) % 2 ^ w
  | .dot4 =>
    let sb (x k : Nat) : Int := (BitVec.ofNat 8 (x / 256 ^ k)).toInt
    wrap w (d + (sb a 0 * sb b 0 + sb a 1 * sb b 1 + sb a 2 * sb b 2 + sb a 3 * sb b 3))
  | .divu => if b = 0 then 2 ^ w - 1 else a / b
  | .div => if b = 0 then 2 ^ w - 1 else wrap w ((twos w a).tdiv (twos w b))
  | .remu => if b = 0 then a else a % b
  | .rem => if b = 0 then a else wrap w ((twos w a).tmod (twos w b))
  | .saddu => min (a + b) (2 ^ w - 1)
  | .sadd => clamp w (twos w a + twos w b)
  | .ssubu => a - b
  | .ssub => clamp w (twos w a - twos w b)

/-- The lane computes what the tables say of operands of SEW bits. -/
theorem IntOp.eval_eq_intTable (op : IntOp) {w a b : Nat} (ha : a < 2 ^ w) (hb : b < 2 ^ w) (d : Nat) :
    op.eval w a b d = intTable op w a b d := by
  have sa := signed_eq_twos ha
  have sb := signed_eq_twos hb
  cases op with
  | minu => simp only [eval, intTable]; split <;> omega
  | maxu => simp only [eval, intTable]; split <;> omega
  | min | max | sra | mulh | sadd | ssub => simp only [eval, intTable, sa, sb]
  | div | rem => simp only [eval, intTable, signedDivRem, sa, sb]; split <;> rfl
  | dot4 => simp only [eval, intTable, dotFour, signedByte_eq_toInt]
  | saddu => exact clampUnsigned_natCast w (a + b)
  | ssubu => exact clampUnsigned_sub ha b
  | add | sub | rsub | and | or | xor | sll | srl | mul | macc | divu | remu => rfl

/-- What a lane computes from operands of SEW bits has SEW bits. -/
theorem IntOp.eval_lt (op : IntOp) {w a b : Nat} (ha : a < 2 ^ w) (hb : b < 2 ^ w) (d : Nat) :
    op.eval w a b d < 2 ^ w := by
  have hm : 0 < 2 ^ w := Nat.two_pow_pos w
  cases op with
  | add | sll | mul | macc => exact Nat.mod_lt _ hm
  | sub | rsub | sra | mulh | dot4 | sadd | ssub => exact wrap_lt _ _
  | saddu | ssubu => exact clampUnsigned_lt _ _
  | minu | min | maxu | max => simp only [eval]; split <;> assumption
  | and => exact Nat.and_lt_two_pow a hb
  | or => exact Nat.or_lt_two_pow ha hb
  | xor => exact Nat.xor_lt_two_pow ha hb
  | srl => exact Nat.lt_of_le_of_lt (Nat.div_le_self _ _) ha
  | divu =>
    simp only [eval]
    split
    · omega
    · exact Nat.lt_of_le_of_lt (Nat.div_le_self _ _) ha
  | remu =>
    simp only [eval]
    split
    · exact ha
    · exact Nat.lt_of_le_of_lt (Nat.mod_le _ _) ha
  | div =>
    simp only [eval, signedDivRem]
    split
    · omega
    · exact wrap_lt _ _
  | rem =>
    simp only [eval, signedDivRem]
    split
    · exact ha
    · exact wrap_lt _ _

/-- Half of the last bit kept is added and the low k bits go: ties round up (R118). -/
def halfUp (z : Int) (k : Nat) : Int := if k = 0 then z else (z + 2 ^ (k - 1)) / 2 ^ k

theorem narrowClip_true {w a : Nat} (h : a < 2 ^ (2 * w)) (k : Nat) :
    narrowClip true w a k = clamp w (halfUp (twos (2 * w) a) (k % (2 * w))) := by
  simp only [narrowClip, halfUp, if_true, signed_eq_twos h, Nat.pos_iff_ne_zero, ite_not]

theorem narrowClip_false {w a : Nat} (h : a < 2 ^ (2 * w)) (k : Nat) :
    narrowClip false w a k = clampUnsigned w (halfUp a (k % (2 * w))) := by
  simp only [narrowClip, halfUp, Bool.false_eq_true, if_false, emod_two_pow_of_lt h, Nat.pos_iff_ne_zero, ne_eq, ite_not]

theorem halfUp_natCast (a k : Nat) : halfUp a k = ((if k = 0 then a else (a + 2 ^ (k - 1)) / 2 ^ k : Nat) : Int) := by
  unfold halfUp
  split <;> simp

/-- The condition of R123, as its table writes it. -/
def compareTable (cc : BitVec 3) (w a b : Nat) : Bool :=
  match cc.toNat with
  | 0 => decide (a = b) | 1 => decide (a ≠ b) | 2 => decide (a < b) | 3 => decide (twos w a < twos w b)
  | 4 => decide (a ≤ b) | 5 => decide (twos w a ≤ twos w b) | 6 => decide (a > b) | _ => decide (twos w a > twos w b)

theorem intCompare_eq_table (cc : BitVec 3) {w a b : Nat} (ha : a < 2 ^ w) (hb : b < 2 ^ w) :
    intCompare cc w a b = compareTable cc w a b := by
  have h : cc = 0 ∨ cc = 1 ∨ cc = 2 ∨ cc = 3 ∨ cc = 4 ∨ cc = 5 ∨ cc = 6 ∨ cc = 7 := by revert cc; decide
  have sa := signed_eq_twos ha
  have sb := signed_eq_twos hb
  rcases h with rfl | rfl | rfl | rfl | rfl | rfl | rfl | rfl
  · rfl
  · exact (decide_not (p := a = b)).symm
  · rfl
  · show decide (signed w a < signed w b) = decide (twos w a < twos w b)
    rw [sa, sb]
  · rfl
  · show decide (signed w a ≤ signed w b) = decide (twos w a ≤ twos w b)
    rw [sa, sb]
  · rfl
  · show decide (signed w b < signed w a) = decide (twos w b < twos w a)
    rw [sa, sb]

/-! ### Operands -/

theorem State.eight_dvd_sew (s : State) : 8 ∣ s.sew := Nat.dvd_mul_right 8 _

/-- An element of whole bytes has as many bits as its width says. -/
theorem VecState.elem_lt (v : VecState) (geo : Geometry) {w : Nat} (h : 8 ∣ w) (r i : Nat) : v.elem geo w r i < 2 ^ w := by
  obtain ⟨n, rfl⟩ := h
  have h4 : 8 * n ≠ 4 := by omega
  have hp : 2 ^ (8 * n) = 256 ^ n := Nat.pow_mul 2 8 n
  simp only [VecState.elem, h4, if_false, hp, Nat.mul_div_cancel_left n (by decide : 0 < 8)]
  exact ByteMap.read_lt _ _ _

/-- A second operand that is `o` where the instruction begins and where its pass begins, with elements of SEW bits. -/
structure SecondOperand (s : State) (b : State → Operand) (o : Operand) : Prop where
  start : b s = o
  entered : b s.enteredQv = o
  lt (i : Nat) : o.at s.core.vec s.core.vec.geometry s.sew i < 2 ^ s.sew

theorem secondOperand_vec (s : State) (r : Nat) : SecondOperand s (fun _ => .vec r) (.vec r) :=
  ⟨rfl, rfl, fun i => s.core.vec.elem_lt _ s.eight_dvd_sew r i⟩

theorem secondOperand_x (s : State) (r : BitVec 5) :
    SecondOperand s (fun t => t.xOperand r) (.all ((s.x r).toNat % 2 ^ s.sew)) :=
  ⟨rfl, rfl, fun _ => Nat.mod_lt _ (Nat.two_pow_pos _)⟩

theorem secondOperand_imm (s : State) (imm : BitVec 5) :
    SecondOperand s (fun t => t.immOperand imm) (.all (wrap s.sew imm.toInt)) :=
  ⟨rfl, rfl, fun _ => wrap_lt _ _⟩

theorem secondOperand_uimm (s : State) (imm : BitVec 5) :
    SecondOperand s (fun _ => uimmOperand imm) (.all imm.toNat) := by
  refine ⟨rfl, rfl, fun _ => ?_⟩
  have h8 : 8 ≤ s.sew := Nat.le_mul_of_pos_right 8 (Nat.two_pow_pos _)
  calc imm.toNat < 2 ^ 5 := imm.isLt
    _ ≤ 2 ^ s.sew := Nat.pow_le_pow_right (by decide) (by omega)

/-- Which registers an instruction reads and which it writes matters to its checks only together. -/
theorem VectorReady.congr {s : State} {rs ws rs' ws' : List Nat} (h : VectorReady s rs ws)
    (hm : ∀ r ∈ rs' ++ ws', r ∈ rs ++ ws) : VectorReady s rs' ws' := by
  obtain ⟨hn, hx, hv, hq, hf, hs⟩ := h
  simp only [State.namesOk, List.all_eq_true] at hn hf
  refine ⟨?_, hx, hv, hq, ?_, hs⟩
  · simpa only [State.namesOk, List.all_eq_true] using fun r hr => hn r (hm r hr)
  · simpa only [List.all_eq_true] using fun r hr => hf r (hm r hr)

theorem VectorReady.stopAt {s : State} {rs ws : List Nat} (h : VectorReady s rs ws) : s.core.stopAt = none :=
  h.2.2.2.2.2

/-! ### Single-width instructions -/

variable {s : State} {op : IntOp} {sgn : Bool} {b : State → Operand} {o : Operand} {vd vs2 vs1 : BitVec 5} {vm : BitVec 1}

/-- An instruction over the elements of the body that its checks let through writes the values of the active ones, each
value formed from the registers as they stood (R106, R107). -/
theorem vectorOp_elementwise {ok : State → Bool} {reads writes : State → List Nat} {pass : State → Exec Unit}
    {geo : Geometry} {d : Dest} {f g : Nat → Nat} (hok : ok s = true) (hr : VectorReady s (reads s) (writes s))
    (hp : pass s.enteredQv = elementwise geo d (s.whenActive vm f)) (hfg : ∀ i, f i = g i) :
    vectorOp ok reads writes pass s = .next (s.enteredQv.pass geo d (s.whenActive vm g)).retire := by
  obtain rfl := funext hfg
  exact vectorOp_ready hok hr (by rw [hp]; exact elementwise_whole hr.stopAt)

/-- vmacc and vdot4 read vd, which every instruction of the family writes (R99). -/
theorem intReads_subset (op : IntOp) (vd vs2 : BitVec 5) (vm : BitVec 1) (o : Operand) :
    ∀ r ∈ vs2.toNat :: o.reads ++ (if op.accumulates then [vd.toNat] else []) ++ maskReads vm ++ [vd.toNat],
      r ∈ vs2.toNat :: o.reads ++ maskReads vm ++ [vd.toNat] := by
  intro r h
  cases hop : op.accumulates with
  | false =>
    rw [hop, if_neg Bool.false_ne_true, List.append_nil] at h
    exact h
  | true =>
    rw [hop, if_pos rfl] at h
    simp only [List.mem_append] at h ⊢
    rcases h with ((h | h) | h) | h
    · exact .inl (.inl h)
    · exact .inr h
    · exact .inl (.inr h)
    · exact .inr h

/-- The state after a single-width instruction of vs2 and a second operand `o`, its elements those of the tables. -/
def State.afterInt (s : State) (op : IntOp) (o : Operand) (vd vs2 : BitVec 5) (vm : BitVec 1) : State :=
  let v := s.core.vec
  let geo := v.geometry
  let w := s.sew
  (s.enteredQv.pass geo (.elems w vd.toNat 1) (s.whenActive vm fun i =>
    intTable op w (v.elem geo w vs2.toNat i) (o.at v geo w i) (v.elem geo w vd.toNat i))).retire

/-- A single-width instruction that its checks let through writes what the tables say (R109, R116 to R120, R122). -/
theorem intVector_ready
    (hb : SecondOperand s b o) (hm : maskOk vm vd.toNat = true) (hd : (op != .dot4 || s.sew == 32) = true)
    (hr : VectorReady s (vs2.toNat :: o.reads ++ maskReads vm) [vd.toNat]) :
    intVector op b vd vs2 vm s = .next (s.afterInt op o vd vs2 vm) := by
  refine vectorOp_elementwise (by rw [hm, hd]; rfl) (hr.congr ?_) rfl fun i => ?_
  · rw [hb.start]
    exact intReads_subset op vd vs2 vm o
  · rw [hb.entered]
    exact op.eval_eq_intTable (s.core.vec.elem_lt _ s.eight_dvd_sew _ i) (hb.lt i) _

/-- A masked v0 as the destination, or vdot4 at another SEW than 32, raises cause 2 (R108, R122). -/
theorem intVector_refused (h : maskOk vm vd.toNat = false ∨ (op != .dot4 || s.sew == 32) = false) :
    intVector op b vd vs2 vm s = .next (s.takeTrap 2 (s.core.ir.setWidth 64)) := by
  apply vectorOp_refused
  rcases h with h | h <;> simp only [h, Bool.false_and, Bool.and_false]

/-- The checks of an instruction that is ready but for its registers come to the full/empty rule: the first empty one that it
reads, with its kvfe bit one, raises cause 26 (R99). -/
theorem beginVector_empty {reads writes : List Nat} {r : Nat}
    (h : VectorReady (s.mapVec fun v => { v with full := -1 }) reads writes)
    (hr : (reads.find? fun q => !s.isFull q && s.core.vec.kvfe.getLsbD q) = some r) :
    beginVector true reads writes s = .error (.trap 26 (BitVec.ofNat 64 r)) s.enteredQv := by
  obtain ⟨hn, hx, hv, hq, -, -⟩ := h
  simp only [beginVector, bind_run, get_run, show s.namesOk (reads ++ writes) = true from hn, Bool.and_self, require_true,
    checkLaneChange_ok (s := s) hx, checkMode_ok (s := s) hv, enterQv_quiet (s := s) hq, checkFull_empty (s := s.enteredQv) hr]

/-- vmacc and vdot4 with an empty destination whose kvfe bit is one raise cause 26 with its number, where every other
register they read is full (R99). -/
theorem intVector_emptyDest (hb : SecondOperand s b o) (ha : op.accumulates = true) (hm : maskOk vm vd.toNat = true)
    (hd : (op != .dot4 || s.sew == 32) = true)
    (hr : VectorReady (s.mapVec fun v => { v with full := -1 }) (vs2.toNat :: o.reads ++ maskReads vm) [vd.toNat])
    (hf : (vs2.toNat :: o.reads ++ maskReads vm).all s.isFull = true) (he : s.isFull vd.toNat = false)
    (hk : s.core.vec.kvfe.getLsbD vd.toNat = true) :
    intVector op b vd vs2 vm s = .next (s.enteredQv.takeTrap 26 (vd.setWidth 64)) := by
  have hfull (r : Nat) (h : r ∈ vs2.toNat :: o.reads) : s.isFull r = true :=
    List.all_eq_true.1 hf r (List.mem_append_left _ h)
  have hfind : ((vs2.toNat :: o.reads ++ (if op.accumulates then [vd.toNat] else []) ++ maskReads vm).find? fun r =>
      !s.isFull r && s.core.vec.kvfe.getLsbD r) = some vd.toNat := by
    rw [ha, if_pos rfl, List.append_assoc, List.find?_append, List.find?_eq_none.2 fun r h => by simp [hfull r h]]
    simp [he, hk]
  apply retiring_trap (t := s.enteredQv)
  simp only [bind_run, get_run, hm, hd, hb.start, Bool.and_self,
    beginVector_empty (hr.congr (intReads_subset op vd vs2 vm o)) hfind, BitVec.ofNat_toNat]

/-! ### Narrowing clips -/

/-- The state after a narrowing clip whose elements are `f` of the pair's elements and the shift amounts. -/
def State.afterClip (s : State) (f : Nat → Nat → Nat) (vd vs2 vs1 : BitVec 5) (vm : BitVec 1) : State :=
  let v := s.core.vec
  let geo := v.geometry
  let w := s.sew
  (s.enteredQv.pass geo (.elems w vd.toNat 1) (s.whenActive vm fun i =>
    f (v.elem geo (2 * w) vs2.toNat i) (v.elem geo w vs1.toNat i % (2 * w)))).retire

/-- A narrowing clip that its checks let through limits each element of the pair, shifted with half added (R118). -/
theorem clipVector_ready (hw : s.sew ≠ 64)
    (hm : maskOk vm vd.toNat = true) (hp : vs2.toNat % 2 = 0) (ho : vs2.toNat / 2 ≠ vd.toNat / 2)
    (hr : VectorReady s ([vs2.toNat, vs2.toNat + 1, vs1.toNat] ++ maskReads vm) [vd.toNat]) {f : Nat → Nat → Nat}
    (hf : ∀ a k, a < 2 ^ (2 * s.sew) → narrowClip sgn s.sew a k = f a (k % (2 * s.sew))) :
    clipVector sgn vd vs2 vs1 vm s = .next (s.afterClip f vd vs2 vs1 vm) :=
  vectorOp_elementwise (by simp [hm, hw, hp, ho]) hr rfl fun i =>
    hf _ _ (s.core.vec.elem_lt _ (Nat.dvd_mul_left_of_dvd s.eight_dvd_sew 2) _ i)

/-- SEW 64, a masked v0, an odd pair and a destination within the pair raise cause 2 (R97, R108, R118). -/
theorem clipVector_refused (h : s.sew = 64 ∨ maskOk vm vd.toNat = false ∨ vs2.toNat % 2 ≠ 0 ∨ vs2.toNat / 2 = vd.toNat / 2) :
    clipVector sgn vd vs2 vs1 vm s = .next (s.takeTrap 2 (s.core.ir.setWidth 64)) := by
  apply vectorOp_refused
  rcases h with h | h | h | h <;> simp [h]

/-! ### Widening instructions -/

/-- The state after a widening instruction of vs2 and a second operand `o`, each extended by `ext`. -/
def State.afterWidening (s : State) (f : Int → Int → Int) (ext : Nat → Int) (o : Operand) (vd vs2 : BitVec 5)
    (vm : BitVec 1) : State :=
  let v := s.core.vec
  let geo := v.geometry
  let w := s.sew
  (s.enteredQv.pass geo (.elems (2 * w) vd.toNat 2) (s.whenActive vm fun i =>
    wrap (2 * w) (f (ext (v.elem geo w vs2.toNat i)) (ext (o.at v geo w i))))).retire

/-- A widening instruction that its checks let through writes a pair from two operands of SEW bits (R121). -/
theorem wideningVector_ready {f : Int → Int → Int}
    (hb : SecondOperand s b o) (hw : s.sew ≠ 64) (hm : maskOk vm vd.toNat = true)
    (hp : vd.toNat % 2 = 0) (ho : vs2.toNat / 2 ≠ vd.toNat / 2) (hos : ∀ r ∈ o.reads, r / 2 ≠ vd.toNat / 2)
    (hr : VectorReady s (vs2.toNat :: o.reads ++ maskReads vm) [vd.toNat, vd.toNat + 1]) {ext : Nat → Int}
    (he : ∀ x, x < 2 ^ s.sew → extend sgn s.sew x = ext x) :
    wideningVector f sgn b vd vs2 vm s = .next (s.afterWidening f ext o vd vs2 vm) := by
  refine vectorOp_elementwise ?_ (by simpa only [hb.start] using hr) rfl fun i => ?_
  · simpa [hb.start, hm, hw, hp, ho] using hos
  · rw [hb.entered, ← he _ (hb.lt i), ← he _ (s.core.vec.elem_lt _ s.eight_dvd_sew _ i)]
    rfl

/-- SEW 64, a masked v0, an odd pair and a source within the pair raise cause 2 (R97, R108, R121). -/
theorem wideningVector_refused {f : Int → Int → Int} (h : s.sew = 64 ∨ maskOk vm vd.toNat = false ∨ vd.toNat % 2 ≠ 0 ∨
      ∃ r ∈ vs2.toNat :: (b s).reads, r / 2 = vd.toNat / 2) :
    wideningVector f sgn b vd vs2 vm s = .next (s.takeTrap 2 (s.core.ir.setWidth 64)) := by
  apply vectorOp_refused
  rcases h with h | h | h | ⟨r, hr, h⟩
  · simp [h]
  · simp [h]
  · simp [h]
  · have : ((vs2.toNat :: (b s).reads).all fun r => r / 2 != vd.toNat / 2) = false :=
      List.all_eq_false.2 ⟨r, hr, by simp [h]⟩
    rw [this, Bool.and_false]

/-- A sum of a pair and an operand of SEW bits that its checks let through (R121). -/
theorem widePlusVector_ready (hw : s.sew ≠ 64)
    (hm : maskOk vm vd.toNat = true) (hp : vd.toNat % 2 = 0) (hp2 : vs2.toNat % 2 = 0)
    (ho : vs1.toNat / 2 ≠ vd.toNat / 2)
    (hr : VectorReady s ([vs2.toNat, vs2.toNat + 1, vs1.toNat] ++ maskReads vm) [vd.toNat, vd.toNat + 1])
    {ext : Nat → Int} (he : ∀ x, x < 2 ^ s.sew → extend sgn s.sew x = ext x) :
    widePlusVector sgn vd vs2 vs1 vm s = .next (s.enteredQv.pass s.core.vec.geometry (.elems (2 * s.sew) vd.toNat 2)
      (s.whenActive vm fun i => wrap (2 * s.sew) (s.core.vec.elem s.core.vec.geometry (2 * s.sew) vs2.toNat i +
        ext (s.core.vec.elem s.core.vec.geometry s.sew vs1.toNat i)))).retire :=
  vectorOp_elementwise (by simp [hm, hw, hp, hp2, ho]) hr rfl fun i => by
    rw [← he _ (s.core.vec.elem_lt _ s.eight_dvd_sew _ i)]
    rfl

/-- SEW 64, a masked v0, an odd pair and a vs1 within vd's pair raise cause 2 in the .wv form (R97, R108, R121). -/
theorem widePlusVector_refused (h : s.sew = 64 ∨ maskOk vm vd.toNat = false ∨ vd.toNat % 2 ≠ 0 ∨ vs2.toNat % 2 ≠ 0 ∨
      vs1.toNat / 2 = vd.toNat / 2) :
    widePlusVector sgn vd vs2 vs1 vm s = .next (s.takeTrap 2 (s.core.ir.setWidth 64)) := by
  apply vectorOp_refused
  rcases h with h | h | h | h | h <;> simp [h]

/-! ### Compares and reductions -/

/-- A compare that its checks let through writes the bit of each active element (R123). -/
theorem compareVector_ready {cc : BitVec 3} {md : BitVec 2} (hb : SecondOperand s b o)
    (hr : VectorReady s (vs2.toNat :: o.reads ++ maskReads vm) [md.toNat]) :
    compareVector cc md b vs2 vm s = .next (s.enteredQv.pass s.core.vec.geometry (.mask md.toNat)
      (s.whenActive vm fun i => if compareTable cc s.sew (s.core.vec.elem s.core.vec.geometry s.sew vs2.toNat i)
        (o.at s.core.vec s.core.vec.geometry s.sew i) then 1 else 0)).retire := by
  refine vectorOp_elementwise rfl (by simpa only [hb.start] using hr) rfl fun i => ?_
  rw [hb.entered, ← intCompare_eq_table cc (s.core.vec.elem_lt _ s.eight_dvd_sew _ i) (hb.lt i)]
  rfl

/-- A fold in the lanes, of values of SEW bits from a seed of SEW bits, is the fold by the tables (R124). -/
theorem foldl_eval_eq (op : IntOp) {w : Nat} {x : Nat → Nat} (hx : ∀ i, x i < 2 ^ w) (l : List Nat) {acc : Nat}
    (ha : acc < 2 ^ w) :
    l.foldl (fun a i => op.eval w a (x i) 0) acc = (l.map x).foldl (fun a b => intTable op w a b 0) acc := by
  induction l generalizing acc with
  | nil => rfl
  | cons i l ih =>
    simp only [List.foldl_cons, List.map_cons, ← op.eval_eq_intTable ha (hx i)]
    exact ih (op.eval_lt ha (hx i) 0)

/-- A reduction that its checks let through folds the active elements into element 0 (R124). -/
theorem reduceVector_ready (hr : VectorReady s ([vs2.toNat, vs1.toNat] ++ maskReads vm) [vd.toNat]) :
    reduceVector op vd vs2 vs1 vm s = .next (s.enteredQv.passAll s.core.vec.geometry (.elems s.sew vd.toNat 1) 1 fun _ =>
      some (((s.activeBody vm).map (s.core.vec.elem s.core.vec.geometry s.sew vs2.toNat)).foldl
        (fun a b => intTable op s.sew a b 0) (s.core.vec.elem s.core.vec.geometry s.sew vs1.toNat 0), 0)).retire := by
  refine vectorOp_ready rfl hr (wholesale_whole.trans ?_)
  have he (r i : Nat) := s.core.vec.elem_lt s.core.vec.geometry s.eight_dvd_sew r i
  rw [← foldl_eval_eq op (he vs2.toNat) _ (he _ _)]
  rfl

/-! ### What exec makes of an instruction of a class -/

/-- What R116 to R120 say of one instruction of the single-width family: cause 2 for a masked v0, else the operation. -/
theorem exec_intVector (op : IntOp) {i : Instr}
    (hb : SecondOperand s b o) (hi : exec i s = intVector op b vd vs2 vm s) (hd : op ≠ .dot4 := by decide) :
    (maskOk vm vd.toNat = false → exec i s = .next (s.takeTrap 2 (s.core.ir.setWidth 64))) ∧
    (maskOk vm vd.toNat = true → VectorReady s (vs2.toNat :: o.reads ++ maskReads vm) [vd.toNat] →
      exec i s = .next (s.afterInt op o vd vs2 vm)) :=
  ⟨fun hm => hi.trans (intVector_refused (.inl hm)),
    fun hm hr => hi.trans (intVector_ready hb hm (by simp [bne, hd]) hr)⟩

/-- What R119 and R122 say of vmacc and vdot4, which read vd beside their other sources (R99). -/
theorem exec_accumulating (op : IntOp) {i : Instr}
    (hb : SecondOperand s b o) (hi : exec i s = intVector op b vd vs2 vm s) :
    (maskOk vm vd.toNat = false ∨ (op != .dot4 || s.sew == 32) = false →
      exec i s = .next (s.takeTrap 2 (s.core.ir.setWidth 64))) ∧
    (maskOk vm vd.toNat = true → (op != .dot4 || s.sew == 32) = true →
      VectorReady s (vs2.toNat :: o.reads ++ [vd.toNat] ++ maskReads vm) [vd.toNat] →
      exec i s = .next (s.afterInt op o vd vs2 vm)) := by
  refine ⟨fun h => hi.trans (intVector_refused h), fun hm hd hr => hi.trans (intVector_ready hb hm hd (hr.congr ?_))⟩
  intro r h
  simp only [List.mem_append] at h ⊢
  rcases h with (h | h) | h
  · exact .inl (.inl (.inl h))
  · exact .inl (.inr h)
  · exact .inr h

/-- What R118 says of a narrowing clip: cause 2 at SEW 64 and for a masked v0, else the clipped elements. -/
theorem exec_clipVector {i : Instr}
    (f : Nat → Nat → Nat) (hi : exec i s = clipVector sgn vd vs2 vs1 vm s)
    (hf : ∀ a k, a < 2 ^ (2 * s.sew) → narrowClip sgn s.sew a k = f a (k % (2 * s.sew))) :
    (s.sew = 64 ∨ maskOk vm vd.toNat = false → exec i s = .next (s.takeTrap 2 (s.core.ir.setWidth 64))) ∧
    (s.sew ≠ 64 → maskOk vm vd.toNat = true → vs2.toNat % 2 = 0 → vs2.toNat / 2 ≠ vd.toNat / 2 →
      VectorReady s ([vs2.toNat, vs2.toNat + 1, vs1.toNat] ++ maskReads vm) [vd.toNat] →
      exec i s = .next (s.afterClip f vd vs2 vs1 vm)) :=
  ⟨fun h => hi.trans (clipVector_refused (h.imp_right .inl)),
    fun hw hm hp ho hr => hi.trans (clipVector_ready hw hm hp ho hr hf)⟩

/-- What R121 says of a widening instruction whose width, mask and pairs are legal. -/
theorem exec_wideningVector (f : Int → Int → Int) (sgn : Bool) {i : Instr}
    (hw : s.sew ≠ 64) (hm : maskOk vm vd.toNat = true) (hp : vd.toNat % 2 = 0)
    (ho : vs2.toNat / 2 ≠ vd.toNat / 2) {ext : Nat → Int} (he : ∀ x, x < 2 ^ s.sew → extend sgn s.sew x = ext x)
    (hb : SecondOperand s b o) (hi : exec i s = wideningVector f sgn b vd vs2 vm s)
    (hos : ∀ r ∈ o.reads, r / 2 ≠ vd.toNat / 2)
    (hr : VectorReady s (vs2.toNat :: o.reads ++ maskReads vm) [vd.toNat, vd.toNat + 1]) :
    exec i s = .next (s.afterWidening f ext o vd vs2 vm) :=
  hi.trans (wideningVector_ready hb hw hm hp ho hos hr he)

theorem wideningVv_exec (s : State) (vd vs2 vs1 : BitVec 5) (vm : BitVec 1) :
    ∀ i ∈ ([.vwadduVv vd vs2 vs1 vm, .vwaddVv vd vs2 vs1 vm, .vwmuluVv vd vs2 vs1 vm, .vwmulVv vd vs2 vs1 vm] : List Instr),
      ∃ f sgn, exec i s = wideningVector f sgn (fun _ => .vec vs1.toNat) vd vs2 vm s := by
  simp only [List.forall_mem_cons]
  exact ⟨⟨_, _, rfl⟩, ⟨_, _, rfl⟩, ⟨_, _, rfl⟩, ⟨_, _, rfl⟩, List.forall_mem_nil _⟩

theorem wideningVx_exec (s : State) (vd vs2 rs1 : BitVec 5) (vm : BitVec 1) :
    ∀ i ∈ ([.vwadduVx vd vs2 rs1 vm, .vwaddVx vd vs2 rs1 vm, .vwmuluVx vd vs2 rs1 vm, .vwmulVx vd vs2 rs1 vm] : List Instr),
      ∃ f sgn, exec i s = wideningVector f sgn (fun t => t.xOperand rs1) vd vs2 vm s := by
  simp only [List.forall_mem_cons]
  exact ⟨⟨_, _, rfl⟩, ⟨_, _, rfl⟩, ⟨_, _, rfl⟩, ⟨_, _, rfl⟩, List.forall_mem_nil _⟩

theorem wideningWv_exec (s : State) (vd vs2 vs1 : BitVec 5) (vm : BitVec 1) :
    ∀ i ∈ ([.vwadduWv vd vs2 vs1 vm, .vwaddWv vd vs2 vs1 vm] : List Instr),
      ∃ sgn, exec i s = widePlusVector sgn vd vs2 vs1 vm s := by
  simp only [List.forall_mem_cons]
  exact ⟨⟨_, rfl⟩, ⟨_, rfl⟩, List.forall_mem_nil _⟩

theorem clips_exec (s : State) (vd vs2 vs1 : BitVec 5) (vm : BitVec 1) :
    ∀ i ∈ ([.vnclipuWv vd vs2 vs1 vm, .vnclipWv vd vs2 vs1 vm] : List Instr),
      ∃ sgn, exec i s = clipVector sgn vd vs2 vs1 vm s := by
  simp only [List.forall_mem_cons]
  exact ⟨⟨_, rfl⟩, ⟨_, rfl⟩, List.forall_mem_nil _⟩

end Sys2Proof.Machine
end

section
/-! SUPPORT. The statements on the vector integer family: each instruction is of one of the classes above. -/

namespace Sys2Proof.Machine

/-- Settles O31: each instruction of the family is one operation of the lanes, which computes its table's row. -/
theorem vectorIntegerFamily : Obligations.VectorIntegerFamily := by
  intro s vd vs2 vs1 rs1 imm vm v geo w m sg wr lim V X I U illegal
  have hV := secondOperand_vec s vs1.toNat
  have hX := secondOperand_x s rs1
  have hI := secondOperand_imm s imm
  have hU := secondOperand_uimm s imm
  refine ⟨?_, ?_, ?_⟩
  · simp only [List.forall_mem_cons]
    exact ⟨exec_intVector .add hV rfl, exec_intVector .add hX rfl, exec_intVector .add hI rfl,
      exec_intVector .sub hV rfl, exec_intVector .rsub hX rfl, exec_intVector .rsub hI rfl,
      exec_intVector .minu hV rfl, exec_intVector .minu hX rfl, exec_intVector .min hV rfl, exec_intVector .min hX rfl,
      exec_intVector .maxu hV rfl, exec_intVector .maxu hX rfl, exec_intVector .max hV rfl, exec_intVector .max hX rfl,
      exec_intVector .and hV rfl, exec_intVector .and hX rfl, exec_intVector .and hI rfl,
      exec_intVector .or hV rfl, exec_intVector .or hX rfl, exec_intVector .or hI rfl,
      exec_intVector .xor hV rfl, exec_intVector .xor hX rfl, exec_intVector .xor hI rfl,
      exec_intVector .sll hV rfl, exec_intVector .sll hX rfl, exec_intVector .sll hU rfl,
      exec_intVector .srl hV rfl, exec_intVector .srl hX rfl, exec_intVector .srl hU rfl,
      exec_intVector .sra hV rfl, exec_intVector .sra hX rfl, exec_intVector .sra hU rfl,
      exec_intVector .mul hV rfl, exec_intVector .mul hX rfl, exec_intVector .mulh hV rfl, exec_intVector .mulh hX rfl,
      exec_intVector .macc hV rfl, exec_intVector .macc hX rfl, exec_intVector .divu hV rfl, exec_intVector .divu hX rfl,
      exec_intVector .div hV rfl, exec_intVector .div hX rfl, exec_intVector .remu hV rfl, exec_intVector .remu hX rfl,
      exec_intVector .rem hV rfl, exec_intVector .rem hX rfl,
      exec_intVector .saddu hV rfl, exec_intVector .saddu hX rfl, exec_intVector .saddu hI rfl,
      exec_intVector .sadd hV rfl, exec_intVector .sadd hX rfl, exec_intVector .sadd hI rfl,
      exec_intVector .ssubu hV rfl, exec_intVector .ssubu hX rfl, exec_intVector .ssub hV rfl, exec_intVector .ssub hX rfl,
      List.forall_mem_nil _⟩
  · have hi : exec (.vmaccVv vd vs2 vs1 vm) s = intVector .macc (fun _ => V) vd vs2 vm s := rfl
    have hi' : exec (.vmaccVx vd vs2 rs1 vm) s = intVector .macc (fun t => t.xOperand rs1) vd vs2 vm s := rfl
    simp only [List.forall_mem_cons]
    exact ⟨fun hm hr hf he hk => hi.trans (intVector_emptyDest hV rfl hm rfl hr hf he hk),
      fun hm hr hf he hk => hi'.trans (intVector_emptyDest hX rfl hm rfl hr hf he hk), List.forall_mem_nil _⟩
  · simp only [List.forall_mem_cons]
    exact ⟨exec_clipVector (fun a k => min (if k = 0 then a else (a + 2 ^ (k - 1)) / 2 ^ k) (2 ^ w - 1)) rfl
        fun a k ha => by rw [narrowClip_false ha, halfUp_natCast, clampUnsigned_natCast],
      exec_clipVector (fun a k => clamp w (halfUp (twos (2 * w) a) k)) rfl fun a k ha => narrowClip_true ha k,
      List.forall_mem_nil _⟩

/-- Settles O32: vmacc and vdot4 are operations of the lanes; a widening instruction or a clip passes its checks, or one of
them refuses it. -/
theorem accumulateWidenAndClip : Obligations.AccumulateWidenAndClip := by
  refine ⟨?_, ?_⟩
  · intro s vd vs2 vs1 rs1 vm v geo w V X sb dot
    have hV := secondOperand_vec s vs1.toNat
    have hX := secondOperand_x s rs1
    exact List.forall_mem_cons.2 ⟨exec_accumulating .macc hV rfl, List.forall_mem_cons.2 ⟨exec_accumulating .macc hX rfl,
      List.forall_mem_cons.2 ⟨exec_accumulating .dot4 hV rfl,
        List.forall_mem_singleton.2 (exec_accumulating .dot4 hX rfl)⟩⟩⟩
  · intro s vd vs2 vs1 rs1 vm v geo w V X u sg wr2 half sg2 limU limS
    have hV := secondOperand_vec s vs1.toNat
    have hX := secondOperand_x s rs1
    have hu (x : Nat) (h : x < 2 ^ s.sew) : extend false s.sew x = u x := extend_false_eq h
    have hs (x : Nat) (h : x < 2 ^ s.sew) : extend true s.sew x = sg x := extend_true_eq_twos h
    refine ⟨fun hw hm => ⟨fun hp ho => ?_, fun hp hp2 ho hr => ?_, fun hp2 ho hr => ?_⟩, ?_⟩
    · have addu {i b o} := exec_wideningVector (i := i) (b := b) (o := o) (· + ·) false hw hm hp ho hu
      have add {i b o} := exec_wideningVector (i := i) (b := b) (o := o) (· + ·) true hw hm hp ho hs
      have mulu {i b o} := exec_wideningVector (i := i) (b := b) (o := o) (· * ·) false hw hm hp ho hu
      have mul {i b o} := exec_wideningVector (i := i) (b := b) (o := o) (· * ·) true hw hm hp ho hs
      simp only [List.forall_mem_cons]
      exact ⟨addu hV rfl, addu hX rfl, add hV rfl, add hX rfl, mulu hV rfl, mulu hX rfl, mul hV rfl, mul hX rfl,
        List.forall_mem_nil _⟩
    · have hi : exec (.vwadduWv vd vs2 vs1 vm) s = widePlusVector false vd vs2 vs1 vm s := rfl
      have hi' : exec (.vwaddWv vd vs2 vs1 vm) s = widePlusVector true vd vs2 vs1 vm s := rfl
      simp only [List.forall_mem_cons]
      exact ⟨hi.trans (widePlusVector_ready hw hm hp hp2 ho hr hu), hi'.trans (widePlusVector_ready hw hm hp hp2 ho hr hs),
        List.forall_mem_nil _⟩
    · simp only [List.forall_mem_cons]
      exact ⟨(exec_clipVector (fun a k => clampUnsigned w (halfUp a k)) rfl fun a k ha => narrowClip_false ha k).2
          hw hm hp2 ho hr,
        (exec_clipVector (fun a k => clamp w (halfUp (twos (2 * w) a) k)) rfl fun a k ha => narrowClip_true ha k).2
          hw hm hp2 ho hr, List.forall_mem_nil _⟩
    · intro vv vx wv clips stops
      have hvv (h) : ∀ i ∈ vv, stops i := fun i hi =>
        have ⟨_, _, e⟩ := wideningVv_exec s vd vs2 vs1 vm i hi
        e.trans (wideningVector_refused h)
      have hvx (h) : ∀ i ∈ vx, stops i := fun i hi =>
        have ⟨_, _, e⟩ := wideningVx_exec s vd vs2 rs1 vm i hi
        e.trans (wideningVector_refused h)
      have hwv (h) : ∀ i ∈ wv, stops i := fun i hi =>
        have ⟨_, e⟩ := wideningWv_exec s vd vs2 vs1 vm i hi
        e.trans (widePlusVector_refused h)
      have hcl (h) : ∀ i ∈ clips, stops i := fun i hi =>
        have ⟨_, e⟩ := clips_exec s vd vs2 vs1 vm i hi
        e.trans (clipVector_refused h)
      simp only [List.forall_mem_append]
      refine ⟨fun h => ?_, fun h => ?_, fun h => ?_, fun h => hwv ?_, fun h => hcl ?_⟩
      · have widthOrMask {p : Prop} := h.imp_right (Or.inl (b := p))
        exact ⟨⟨⟨hvv widthOrMask, hvx widthOrMask⟩, hwv widthOrMask⟩, hcl widthOrMask⟩
      · have pairOrSource {l} := h.imp_right fun e =>
          (⟨_, List.mem_cons_self, e⟩ : ∃ r ∈ vs2.toNat :: l, r / 2 = vd.toNat / 2)
        exact ⟨hvv (.inr (.inr pairOrSource)), hvx (.inr (.inr pairOrSource))⟩
      · have source : ∃ r ∈ [vs2.toNat, vs1.toNat], r / 2 = vd.toNat / 2 := ⟨_, .tail _ (.head _), h⟩
        exact ⟨hvv (.inr (.inr (.inr source))), hwv (.inr (.inr (.inr (.inr h))))⟩
      · exact .inr (.inr (h.imp_right .inl))
      · exact .inr (.inr h)

/-- Settles O33: compares by their table, reductions by the fold in the lanes. -/
theorem vectorComparesAndReductions : Obligations.VectorComparesAndReductions := by
  refine ⟨?_, ?_⟩
  · intro s cc md vs2 vs1 rs1 imm vm v geo w sg holds
    simp only [List.forall_mem_cons]
    exact ⟨fun hr => compareVector_ready (secondOperand_vec s vs1.toNat) hr,
      fun hr => compareVector_ready (secondOperand_x s rs1) hr,
      fun hr => compareVector_ready (secondOperand_imm s imm) hr, List.forall_mem_nil _⟩
  · intro s vd vs2 vs1 vm v geo w sg hr
    simp only [List.forall_mem_cons]
    exact ⟨reduceVector_ready (op := .add) hr, reduceVector_ready (op := .minu) hr, reduceVector_ready (op := .min) hr,
      reduceVector_ready (op := .maxu) hr, reduceVector_ready (op := .max) hr, reduceVector_ready (op := .and) hr,
      reduceVector_ready (op := .or) hr, reduceVector_ready (op := .xor) hr, List.forall_mem_nil _⟩

end Sys2Proof.Machine
end

section
/-! SUPPORT. The barriers (12_sync_model R297 to R300): the barrier that a handle names, and each path of `barinit`, `vfencebar`
and `barwait`. -/

namespace Sys2Proof.Machine

/-! ### Barriers in memory -/

/-- A barrier is read with the level, the domain and the identifier it is asked for by. -/
theorem MemState.barrier_place (m : MemState) (p : Nat × Nat × Nat) :
    (m.barrier p).level = p.1 ∧ (m.barrier p).domain = p.2.1 ∧ (m.barrier p).ident = p.2.2 := by
  unfold MemState.barrier
  cases h : m.barriers.find? fun x => x.level = p.1 ∧ x.domain = p.2.1 ∧ x.ident = p.2.2 with
  | none => exact ⟨rfl, rfl, rfl⟩
  | some x => simpa using List.find?_some h

/-- A barrier that is written is read back at its place. -/
theorem MemState.barrier_putBarrier (x : Barrier) (m : MemState) :
    (m.putBarrier x).barrier (x.level, x.domain, x.ident) = x := by
  simp [MemState.barrier, MemState.putBarrier]

/-- A barrier whose count, arrivals or generation change stays at its place. -/
theorem MemState.barrier_putBarrier_with (m : MemState) (p : Nat × Nat × Nat) (init : Bool) (count arrived gen : BitVec 16) :
    (m.putBarrier { m.barrier p with init, count, arrived, gen }).barrier p =
      { m.barrier p with init, count, arrived, gen } := by
  have h := MemState.barrier_putBarrier { m.barrier p with init, count, arrived, gen } m
  obtain ⟨hl, hd, hi⟩ := m.barrier_place p
  simpa only [hl, hd, hi] using h

/-! ### Handles -/

theorem field_eq_div_mod (w : Word) (lo len : Nat) : field w lo len = w.toNat / 2 ^ lo % 2 ^ len := by
  simp [field, BitVec.extractLsb'_toNat, Nat.shiftRight_eq_div_pow]

/-- A handle that names a barrier (R297). -/
def ValidHandle (h : Word) : Prop :=
  h.toNat < 1024 ∧ h.toNat / 64 % 4 = 0 ∧ h.toNat / 256 % 4 ≠ 3 ∧ (h.toNat / 256 % 4 = 2 → h.toNat % 64 < 16)

/-- The place of the barrier that a valid handle names: LEVEL, the caller's cluster, die or module, and ID (R297). -/
def State.barrierPlace (s : State) (h : Word) : Nat × Nat × Nat :=
  let level := h.toNat / 256 % 4
  (level, (if level = 0 then s.core.id / 12 else if level = 1 then s.core.id / 96 else 0), h.toNat % 64)

theorem State.barrierOf_invalid {h : Word} (hv : ¬ValidHandle h) (s : State) : s.barrierOf h = none := by
  have bad : 1024 ≤ h.toNat ∨ h.toNat / 64 % 4 ≠ 0 ∨ h.toNat / 256 % 4 = 3 ∨ h.toNat / 256 % 4 = 2 ∧ 15 < h.toNat % 64 := by
    unfold ValidHandle at hv
    omega
  refine if_pos ?_
  simpa [field_eq_div_mod, ← or_assoc, -not_or] using bad

theorem State.barrierOf_valid {h : Word} (hv : ValidHandle h) (s : State) : s.barrierOf h = some (s.barrierPlace h) := by
  obtain ⟨hlt, hzero, hlevel, hid⟩ := hv
  have level : h.toNat / 256 % 4 = 0 ∨ h.toNat / 256 % 4 = 1 ∨ h.toNat / 256 % 4 = 2 ∧ h.toNat % 64 < 16 := by omega
  rcases level with e | e | ⟨e, hid⟩
  · simp [State.barrierOf, State.barrierPlace, field_eq_div_mod, e, hlt, hzero]
  · simp [State.barrierOf, State.barrierPlace, field_eq_div_mod, e, hlt, hzero, dieOf]
  · simp [State.barrierOf, State.barrierPlace, field_eq_div_mod, e, hlt, hzero, Nat.le_of_lt_succ hid]

/-- What misuse of a barrier comes to: cause 53, with its code and the handle in stval (R297). -/
def State.barrierTrap (s : State) (code : Nat) (h : Word) : Host.Outcome State Fault Refusal :=
  .next (s.takeTrap 53 (BitVec.ofNat 64 (65536 * code + h.toNat % 1024)))

@[simp] theorem barrierMisuse_run (code : Nat) (h : Word) (s : State) :
    (barrierMisuse code h : Exec α) s = .error (.trap 53 (BitVec.ofNat 64 (65536 * code + h.toNat % 1024))) s := by
  simp [barrierMisuse, field_eq_div_mod]

theorem barrierAt_invalid {h : Word} (hv : ¬ValidHandle h) (s : State) :
    barrierAt h s = .error (.trap 53 (BitVec.ofNat 64 (65536 * 1 + h.toNat % 1024))) s := by
  simp [barrierAt, State.barrierOf_invalid hv]

/-- The barrier that the handle in x[rs1] names. -/
def State.namedBarrier (s : State) (rs1 : BitVec 5) : Barrier := s.mem.barrier (s.barrierPlace (s.x rs1))

theorem barrierAt_valid {rs1 : BitVec 5} {s : State} (hv : ValidHandle (s.x rs1)) :
    barrierAt (s.x rs1) s = .ok (s.namedBarrier rs1) s := by
  simp [barrierAt, State.barrierOf_valid hv, State.namedBarrier]

/-! ### What retires with a result -/

/-- `rd` takes `v` and the instruction retires; of `s` no other register and no byte of memory differs, and of `u` nothing but
what an access changes. -/
def GivesX (rd : BitVec 5) (v : Word) (s u t : State) : Prop :=
  t.x rd = (if rd = 0 then 0 else v) ∧ KeepsOthers rd s t ∧ Retired s t ∧ FrameAccess u t

/-- A write of an x register before retirement adds nothing to what an access may change. -/
theorem FrameAccess.setX {u w : State} (h : FrameAccess u w.retire) (rd : BitVec 5) (v : Word) :
    FrameAccess u (w.setX rd v).retire := by
  obtain ⟨hcore, hstate⟩ := h
  obtain ⟨regs, hset⟩ : ∃ regs, w.setX rd v = w.mapCore fun c => { c with regs } := by
    unfold State.setX
    split
    · exact ⟨w.core.regs, rfl⟩
    · exact ⟨_, rfl⟩
  rw [hset]
  exact ⟨congrArg (fun c : Core => { c with regs }) hcore,
    congrArg (fun t : State => t.mapCore fun c => { c with regs }) hstate⟩

/-- A body that has changed nothing of `s` but its phase, its data cache and what it had begun, and no byte of memory, puts its
result and retires. -/
theorem givesX_retire (rd : BitVec 5) (v : Word) {s u w : State}
    (hcore : w.core = { s.core with begun := w.core.begun, dcache := w.core.dcache, phase := w.core.phase,
                                    lastBump := w.core.lastBump })
    (hbytes : w.mem.bytes = s.mem.bytes) (hframe : FrameAccess u w.retire) : GivesX rd v s u (w.setX rd v).retire := by
  have keeps : KeepsOthers rd s (w.setX rd v).retire := by
    refine ⟨fun r h => ?_, (State.setX_core_fregs rd v w).trans (by rw [hcore]), SameMemory.of_bytes (by simpa using hbytes)⟩
    rw [State.x_retire, State.x_setX_other h]
    exact State.x_congr (by rw [hcore]) r
  have retired : Retired s (w.setX rd v).retire :=
    retired_retire _ _ (by rw [State.setX_core_pc, hcore]) (by rw [State.setX_core_instret, hcore])
      (by rw [State.setX_core_csr, hcore])
  exact ⟨(writesX_retire rd v w).1, keeps, retired, hframe.setX rd v⟩

/-! ### Releases -/

/-- A release at cluster scope or wider bumps a phase that may move (R277). -/
theorem release_of_releaseFree {s : State} (h : ReleaseFree 1 s) (n : Nat) : release (n + 1) s = .ok () s.bumpPhase :=
  release_free (Nat.succ_ne_zero n) (h rfl)

/-- A release at cluster scope or wider waits for a phase that may not move yet (R277). -/
theorem release_of_not_releaseFree {s : State} (h : ¬ReleaseFree 1 s) (n : Nat) : release (n + 1) s = .error .wait s := by
  obtain ⟨t, hb, ht⟩ : ∃ t, s.core.lastBump = some t ∧ s.tick < t + 40 := by simpa [ReleaseFree] using h
  exact release_soon (Nat.succ_ne_zero n) hb ht

/-- A core that has begun to wait at a barrier. -/
def State.begunBarrier (s : State) : State := s.mapCore fun c => { c with begun := .barrier }

@[simp] theorem State.mapCore_begun_barrier (s : State) :
    (s.mapCore fun c => { c with begun := .barrier }) = s.begunBarrier := rfl

/-! ### The three instructions -/

section
variable {s : State} {rs1 : BitVec 5} (rd rs2 : BitVec 5)

/-- An instruction that begins with the lane change and its handle is stopped by a handle that names no barrier (R297). -/
theorem retiring_invalidHandle (hx : s.core.vec.cfg.vlx = false) (hv : ¬ValidHandle (s.x rs1))
    (body : State → Barrier → Exec Unit) :
    retiring (do checkLaneChange; let s ← get; let b ← barrierAt (s.x rs1); body s b) s = s.barrierTrap 1 (s.x rs1) :=
  retiring_trap (by simp [checkLaneChange_ok hx, barrierAt_invalid hv])

/-- `barinit`, `vfencebar` and `barwait` at a handle that names no barrier (R297). -/
theorem exec_invalidHandle (hx : s.core.vec.cfg.vlx = false) (hv : ¬ValidHandle (s.x rs1)) :
    ∀ i ∈ [Instr.barinit rd rs1 rs2, .vfencebar rd rs1, .barwait rd rs1 rs2], exec i s = s.barrierTrap 1 (s.x rs1) := by
  simp only [List.forall_mem_cons]
  exact ⟨retiring_invalidHandle hx hv _, retiring_invalidHandle hx hv _, retiring_invalidHandle hx hv _,
    List.forall_mem_nil _⟩

/-- The test of INIT passes where the barrier is initialised, and where it has been passed before a wait (R299, R300). -/
theorem not_uninitialised (hi : (s.namedBarrier rs1).init = true ∨ s.core.begun = .barrier) :
    ¬(¬s.core.begun = .barrier ∧ (s.namedBarrier rs1).init = false) := by
  rintro ⟨hb, h⟩
  simp [hb, h] at hi

variable (hx : s.core.vec.cfg.vlx = false) (hv : ValidHandle (s.x rs1))
include hx hv

theorem execBarinit_overCount (hk : 65535 < (s.x rs2).toNat) :
    execBarinit rd rs1 rs2 s = s.barrierTrap 1 (s.x rs1) :=
  retiring_trap (by simp [checkLaneChange_ok hx, barrierAt_valid hv, hk])

/-- User mode may not discard arrivals that are pending (R298). -/
theorem execBarinit_pendingInUser (hk : (s.x rs2).toNat ≤ 65535) (ha : ¬(s.namedBarrier rs1).arrived = 0#16)
    (hu : s.core.priv = .user) : execBarinit rd rs1 rs2 s = s.barrierTrap 3 (s.x rs1) :=
  retiring_trap (by simp [checkLaneChange_ok hx, barrierAt_valid hv, Nat.not_lt.2 hk, hu, ha])

/-- `barinit` gives the generation, which has advanced where it discards arrivals (R298). -/
theorem execBarinit_sets (hk : (s.x rs2).toNat ≤ 65535)
    (hu : ¬((s.namedBarrier rs1).arrived ≠ 0 ∧ s.core.priv = .user)) :
    let p := s.barrierPlace (s.x rs1)
    let b := s.namedBarrier rs1
    let g := if b.arrived ≠ 0 then b.gen + 1 else b.gen
    ∃ t, execBarinit rd rs1 rs2 s = .next t ∧ GivesX rd (g.setWidth 64) s s t ∧
      t.mem.barrier p = ⟨p.1, p.2.1, p.2.2, decide (s.x rs2 ≠ 0), (s.x rs2).setWidth 16, 0, g⟩ := by
  intro p b g
  refine ⟨_, retiring_ok (t := (s.mapMem (MemState.putBarrier
    { b with gen := g, arrived := 0, count := (s.x rs2).setWidth 16, init := s.x rs2 != 0 })).setX rd (g.setWidth 64)) ?_,
    givesX_retire _ _ rfl rfl ⟨rfl, rfl⟩, ?_⟩
  · have hu : ¬(¬(s.namedBarrier rs1).arrived = 0#16 ∧ s.core.priv = .user) := hu
    simp [checkLaneChange_ok hx, barrierAt_valid hv, Nat.not_lt.2 hk, hu, b, g]
  · obtain ⟨hlevel, hdomain, hident⟩ := s.mem.barrier_place p
    rw [State.retire_mem, State.setX_mem, ← hlevel, ← hdomain, ← hident, decide_not]
    exact s.mem.barrier_putBarrier_with p _ _ _ _

theorem execVfencebar_uninitialised (hi : (s.namedBarrier rs1).init = false) (hb : s.core.begun ≠ .barrier) :
    execVfencebar rd rs1 s = s.barrierTrap 2 (s.x rs1) :=
  retiring_trap (by simp [checkLaneChange_ok hx, barrierAt_valid hv, hi, hb])

theorem execBarwait_overGeneration (hk : 65535 < (s.x rs2).toNat) :
    execBarwait rd rs1 rs2 s = s.barrierTrap 1 (s.x rs1) :=
  retiring_trap (by simp [checkLaneChange_ok hx, barrierAt_valid hv, hk])

theorem execBarwait_uninitialised (hk : (s.x rs2).toNat ≤ 65535) (hi : (s.namedBarrier rs1).init = false)
    (hb : s.core.begun ≠ .barrier) : execBarwait rd rs1 rs2 s = s.barrierTrap 2 (s.x rs1) :=
  retiring_trap (by simp [checkLaneChange_ok hx, barrierAt_valid hv, Nat.not_lt.2 hk, hi, hb])

variable (hi : (s.namedBarrier rs1).init = true ∨ s.core.begun = .barrier)
include hi

/-- An arrival begins, and waits until its release may bump the phase (R277, R299). -/
theorem execVfencebar_waits (hr : ¬ReleaseFree 1 s) : execVfencebar rd rs1 s = .next s.begunBarrier :=
  have hrelease := release_of_not_releaseFree (s := s.begunBarrier) hr
  retiring_wait (by simp [checkLaneChange_ok hx, barrierAt_valid hv, not_uninitialised hi, hrelease])

/-- An arrival releases and is counted, and the last one of a generation begins the next (R299). -/
theorem execVfencebar_arrives (hr : ReleaseFree 1 s) :
    let b := s.namedBarrier rs1
    ∃ t, execVfencebar rd rs1 s = .next t ∧ GivesX rd (b.gen.setWidth 64) s (s.afterRelease 1) t ∧
      t.core.phase = s.core.phase + 1 ∧
      t.mem.barrier (s.barrierPlace (s.x rs1)) = (if b.arrived + 1 = b.count then { b with arrived := 0, gen := b.gen + 1 }
        else { b with arrived := b.arrived + 1 }) := by
  intro b
  let full := b.arrived + 1 = b.count
  let w := s.begunBarrier.bumpPhase.mapMem (MemState.putBarrier
    { b with arrived := if full then 0 else b.arrived + 1, gen := if full then b.gen + 1 else b.gen })
  refine ⟨_, retiring_ok (t := w.setX rd (b.gen.setWidth 64)) ?_, givesX_retire _ _ rfl rfl ⟨rfl, rfl⟩, ?_, ?_⟩
  · have hrelease := release_of_releaseFree (s := s.begunBarrier) hr
    simp [checkLaneChange_ok hx, barrierAt_valid hv, not_uninitialised hi, hrelease, b, w, full]
  · exact State.setX_core_phase rd _ w
  · rw [State.retire_mem, State.setX_mem]
    refine (s.mem.barrier_putBarrier_with _ _ _ _ _).trans ?_
    by_cases h : b.arrived + 1 = b.count
    · simp only [full, h, if_true]
      rfl
    · simp only [full, h, if_false]
      rfl

/-- A generation that is not yet begun is misuse, until the wait has begun (R300). -/
theorem execBarwait_notBegun (hk : (s.x rs2).toNat ≤ 65535)
    (hd : 32768 ≤ ((s.namedBarrier rs1).gen - (s.x rs2).setWidth 16).toNat) (hb : s.core.begun ≠ .barrier) :
    execBarwait rd rs1 rs2 s = s.barrierTrap 4 (s.x rs1) :=
  retiring_trap (by
    simp [checkLaneChange_ok hx, barrierAt_valid hv, Nat.not_lt.2 hk, hb, hi.resolve_right hb, -BitVec.toNat_sub, hd])

/-- `barwait` waits for the end of the present generation (R300). -/
theorem execBarwait_waits (hk : (s.x rs2).toNat ≤ 65535) (hd : (s.namedBarrier rs1).gen - (s.x rs2).setWidth 16 = 0#16) :
    execBarwait rd rs1 rs2 s = .next s.begunBarrier :=
  retiring_wait (by
    simp [checkLaneChange_ok hx, barrierAt_valid hv, Nat.not_lt.2 hk, not_uninitialised hi, -BitVec.toNat_sub, hd])

/-- `barwait` for a generation that has ended is an acquire, and gives the present one (R300). -/
theorem execBarwait_acquires (hk : (s.x rs2).toNat ≤ 65535)
    (hd : ¬(s.namedBarrier rs1).gen - (s.x rs2).setWidth 16 = 0#16)
    (hb : ((s.namedBarrier rs1).gen - (s.x rs2).setWidth 16).toNat < 32768 ∨ s.core.begun = .barrier) :
    ∃ t, execBarwait rd rs1 rs2 s = .next t ∧ GivesX rd ((s.namedBarrier rs1).gen.setWidth 64) s s t ∧
      t.core.dcache = [] := by
  refine ⟨_, retiring_ok (t := s.invalidateData.setX rd ((s.namedBarrier rs1).gen.setWidth 64)) ?_,
    givesX_retire _ _ rfl rfl ⟨rfl, rfl⟩, State.setX_core_dcache _ _ _⟩
  have hbegun : ¬(¬s.core.begun = .barrier ∧ 32768 ≤ ((s.namedBarrier rs1).gen - (s.x rs2).setWidth 16).toNat) :=
    fun ⟨h, hge⟩ => hb.elim (Nat.not_lt.2 hge) h
  simp [checkLaneChange_ok hx, barrierAt_valid hv, Nat.not_lt.2 hk, not_uninitialised hi, -BitVec.toNat_sub, hbegun, hd, acquire]

end

/-! ### The statement -/

/-- Settles O46: the paths of the three instructions, by the handle, the barrier's state and what the core had begun. -/
theorem barriers : Obligations.Barriers := by
  intro s rd rs1 rs2 h k level place valid misuse b gives d hx
  refine ⟨exec_invalidHandle rd rs2 hx, fun hv => ⟨?overCount, ?barinit, ?uninitialised, ?waits, ?arrives, ?barwait⟩⟩
  case overCount => exact fun hk => ⟨execBarinit_overCount rd rs2 hx hv hk, execBarwait_overGeneration rd rs2 hx hv hk⟩
  case barinit => exact fun hk => ⟨execBarinit_pendingInUser rd rs2 hx hv hk, execBarinit_sets rd rs2 hx hv hk⟩
  case uninitialised =>
    exact fun hi hb => ⟨execVfencebar_uninitialised rd hx hv hi hb, fun hk => execBarwait_uninitialised rd rs2 hx hv hk hi hb⟩
  case waits => exact execVfencebar_waits rd hx hv
  case arrives => exact execVfencebar_arrives rd hx hv
  case barwait =>
    exact fun hk hi => ⟨execBarwait_notBegun rd rs2 hx hv hi hk, execBarwait_waits rd rs2 hx hv hi hk,
      execBarwait_acquires rd rs2 hx hv hi hk⟩

end Sys2Proof.Machine
end
